-- ==== Sys2Proof/Word.lean ====
section
/-! DEFINITION. The block's data type: the byte (00_scope.md R16: every value is an unsigned integer of a stated width, or a boolean). -/

namespace Sys2Proof

/-- An 8-bit value: operand bytes, payload bytes, frames, register contents (R16, R100, R110). -/
abbrev Byte := BitVec 8

end Sys2Proof
end

