-- ==== Sys2Proof/Config.lean ====
section
/-! DEFINITION. What is fixed when the block is built (00_scope.md R9 to R15, 70_reset_and_hazards.md R340), the answers the
environment may give (20_memory.md R74, 60_exceptions.md R309), and the values the spec leaves open, as opaque constants. -/

namespace Sys2Proof

/-- The protocol family, `P_FAMILY` (R2, R9): `char` reads as 0 and `graphic` as 1 (10_state.md R34). -/
inductive Family where
  | char
  | graphic
  deriving DecidableEq, Repr

/-- The structural parameters of one block, fixed for its lifetime (R340). They are plain data in State, so that a statement
over every state is a statement over every build ("the model takes it as an argument", R10). -/
structure Params where
  /-- `P_FAMILY` (R2, R9) -/
  family      : Family
  /-- `P_BUS_ADDR` (R10) -/
  busAddr     : BitVec 7
  /-- `M_RW` (R11) -/
  maskRw      : Byte
  /-- `P_MASK_EN` (R11) -/
  maskEn      : Byte
  /-- `P_MASK_BL` (R11) -/
  maskBl      : Byte
  /-- `T_POWER_ON` (R12) -/
  tPowerOn    : Nat
  /-- `T_RESET1` (R12) -/
  tReset1     : Nat
  /-- `T_RESET2` (R12) -/
  tReset2     : Nat
  /-- `T_RESET3` (R12) -/
  tReset3     : Nat
  /-- `T_4BIT_SETTLE` (R12) -/
  tSettle4    : Nat
  /-- `T_LATCH` (R12) -/
  tLatch      : Nat
  /-- `T_PROC` (R12) -/
  tProc       : Nat
  /-- `T_CLEAR` (R12) -/
  tClear      : Nat
  /-- `T_HOME` (R12) -/
  tHome       : Nat
  /-- `P_MAX_PAYLOAD` (R13) -/
  maxPayload  : Nat
  /-- `P_CTRL_CMD` (R14) -/
  ctrlCmd     : Byte
  /-- `P_CTRL_DATA1` (R14) -/
  ctrlData1   : Byte
  /-- `P_CTRL_STREAM` (R14) -/
  ctrlStream  : Byte
  /-- `P_GFX_WIDTH` (R14) -/
  gfxWidth    : Byte
  /-- `P_GFX_HEIGHT` (R14) -/
  gfxHeight   : Byte
  /-- `P_GFX_INIT_SEQ` (R14) -/
  gfxInitSeq  : List Byte
  deriving DecidableEq, Repr

/-- The constraints the spec puts on the masks: `P_MASK_EN` and `P_MASK_BL` are distinct single bits of {0x02, 0x04, 0x08},
and `M_RW` is the remaining bit of bits [3:1] (R11). -/
abbrev Params.masksWf (p : Params) : Prop :=
  (p.maskEn = 0x02 ∨ p.maskEn = 0x04 ∨ p.maskEn = 0x08) ∧
  (p.maskBl = 0x02 ∨ p.maskBl = 0x04 ∨ p.maskBl = 0x08) ∧
  p.maskEn ≠ p.maskBl ∧
  p.maskRw = 0x0E ^^^ p.maskEn ^^^ p.maskBl

/-- The constraints the spec puts on the other parameters (R12, R13, R14). -/
abbrev Params.valuesWf (p : Params) : Prop :=
  p.tReset2 ≤ p.tReset1 ∧ p.tReset3 ≤ p.tReset2 ∧ p.tHome ≤ p.tClear ∧
  64 ≤ p.maxPayload ∧
  p.ctrlCmd ≠ p.ctrlData1 ∧ p.ctrlCmd ≠ p.ctrlStream ∧ p.ctrlData1 ≠ p.ctrlStream ∧
  p.gfxWidth ≠ 0 ∧ p.gfxHeight ≠ 0

/-- A legal set of parameters (R9 to R14). -/
abbrev Params.wf (p : Params) : Prop := p.masksWf ∧ p.valuesWf

/-- The opaque value a failed transaction carries (30_encoding.md R106, U4). The number only tells one cause from another. -/
abbrev Cause := Nat

/-- What the transport does with one bus transaction: `ok`, `fail(cause)` (20_memory.md R74), or no answer ever (60_exceptions.md
R309, U6). -/
inductive BusAnswer where
  | ok
  | fail (cause : Cause)
  | never
  deriving DecidableEq, Repr, Inhabited

/-- The answer of the transport to the n-th transaction after the answers listed in State have run out: a free value (U5; log
entry 5). -/
opaque Config.busAnswer : Nat → BusAnswer

/-- The content of the glyph store at reset, byte by byte: a free value (10_state.md R43, U1; log entry 6). -/
opaque Config.storeDraw : Nat → Byte

/-- `P_BUS_ADDR` of the block State.reset builds: OPEN (R10; log entry 4). -/
opaque Config.busAddr : BitVec 7

/-- The durations of R12, OPEN (log entry 4). Where R12 orders two of them the larger is the smaller plus an open excess, so that
the order holds for every value of these constants. -/
opaque Config.tPowerOn : Nat
/-- `T_RESET3` (R12; log entry 4) -/
opaque Config.tReset3 : Nat
/-- `T_RESET2 - T_RESET3` (R12; log entry 4) -/
opaque Config.tReset2Excess : Nat
/-- `T_RESET1 - T_RESET2` (R12; log entry 4) -/
opaque Config.tReset1Excess : Nat
/-- `T_4BIT_SETTLE` (R12; log entry 4) -/
opaque Config.tSettle4 : Nat
/-- `T_LATCH` (R12; log entry 4) -/
opaque Config.tLatch : Nat
/-- `T_PROC` (R12; log entry 4) -/
opaque Config.tProc : Nat
/-- `T_HOME` (R12; log entry 4) -/
opaque Config.tHome : Nat
/-- `T_CLEAR - T_HOME` (R12; log entry 4) -/
opaque Config.tClearExcess : Nat
/-- `P_MAX_PAYLOAD - 64` (R13; log entry 4) -/
opaque Config.maxPayloadExcess : Nat
/-- `P_GFX_WIDTH - 1`: the width is 1..255 (R14; log entry 4) -/
opaque Config.gfxWidthLessOne : Fin 255
/-- `P_GFX_HEIGHT - 1`: the height is 1..255 (R14; log entry 4) -/
opaque Config.gfxHeightLessOne : Fin 255
/-- `P_GFX_INIT_SEQ` (R14; log entry 4) -/
opaque Config.gfxInitSeq : List Byte

/-- The parameters of the block that State.reset builds: the CHAR family (DESIGN CHOICE, log entry 3), the spec's defaults where
it has them (R11, R14), and an opaque constant for every OPEN value (log entry 4). -/
def Config.params : Params where
  family     := .char
  busAddr    := Config.busAddr
  maskRw     := 0x02
  maskEn     := 0x04
  maskBl     := 0x08
  tPowerOn   := Config.tPowerOn
  tReset1    := Config.tReset3 + Config.tReset2Excess + Config.tReset1Excess
  tReset2    := Config.tReset3 + Config.tReset2Excess
  tReset3    := Config.tReset3
  tSettle4   := Config.tSettle4
  tLatch     := Config.tLatch
  tProc      := Config.tProc
  tClear     := Config.tHome + Config.tClearExcess
  tHome      := Config.tHome
  maxPayload := 64 + Config.maxPayloadExcess
  ctrlCmd    := 0x80
  ctrlData1  := 0xC0
  ctrlStream := 0x40
  gfxWidth   := BitVec.ofNat 8 (Config.gfxWidthLessOne.val + 1)
  gfxHeight  := BitVec.ofNat 8 (Config.gfxHeightLessOne.val + 1)
  gfxInitSeq := Config.gfxInitSeq

end Sys2Proof
end

