-- ==== Sys2Proof/Syntax.lean ====
section
/-! DEFINITION. The instructions: one constructor per row of spec/opcode_table.json (30_encoding.md), the words that arrive at the
block's port, and the status codes and responses it answers with. -/

namespace Sys2Proof

/-- One constructor per row of the opcode table.

A request row (format REQ) carries every field of its word and its payload, the reserved bits among them: reserved bits are
checked when the request runs (30_encoding.md R105, 60_exceptions.md R302 step 5), not when it is decoded (R109). `resA`, `resB`
name the reserved bits of the operand bytes A and B, `a`, `b`, `c` whole reserved bytes, `p` the payload (R100).

A row of format HD44780-CMD, HD44780-NIBBLE or OLED-CMD carries the fields of its controller byte, the don't-care bits among
them (R111, R113). -/
inductive Instr where
  -- lifecycle (44_lifecycle.md)
  | init (variant : Byte) (bl on : Bool) (resB : BitVec 6) (c : Byte) (p : List Byte)
  | teardown (a b c : Byte) (p : List Byte)
  | readReg (reg b c : Byte) (p : List Byte)
  -- high-level character-family requests (45_high_level_ops.md)
  | clear (a b c : Byte) (p : List Byte)
  | home (a b c : Byte) (p : List Byte)
  | setPos (x y c : Byte) (p : List Byte)
  | writeText (a b c : Byte) (p : List Byte)
  | writeTextAtLine (row b c : Byte) (p : List Byte)
  | setCursorStyle (visible blinking : Bool) (resA : BitVec 6) (b c : Byte) (p : List Byte)
  | setDisplayOnChar (on : Bool) (resA : BitVec 7) (b c : Byte) (p : List Byte)
  | setDisplayOnGraphic (on : Bool) (resA : BitVec 7) (b c : Byte) (p : List Byte)
  | setBacklight (on : Bool) (resA : BitVec 7) (b c : Byte) (p : List Byte)
  | setGlyph (index b c : Byte) (p : List Byte)
  | setAllGlyphs (a b c : Byte) (p : List Byte)
  | getGlyph (index b c : Byte) (p : List Byte)
  | getAllGlyphs (a b c : Byte) (p : List Byte)
  -- raw bytes (42_nibble_strobe.md, 43_framed_byte.md)
  | writeCommandChar (byte b c : Byte) (p : List Byte)
  | writeCommandGraphic (byte b c : Byte) (p : List Byte)
  | writeDataChar (byte b c : Byte) (p : List Byte)
  | writeDataGraphic (byte b c : Byte) (p : List Byte)
  | writeDataStream (a b c : Byte) (p : List Byte)
  -- raw controller-command requests (41_command_encoder.md)
  | cmdEntryMode (inc shift : Bool) (resA : BitVec 6) (b c : Byte) (p : List Byte)
  | cmdFunctionSet (dl n f : Bool) (resA : BitVec 5) (b c : Byte) (p : List Byte)
  | cmdSetCgram (offset b c : Byte) (p : List Byte)
  | cmdSetDdram (offset b c : Byte) (p : List Byte)
  -- graphic settings (43_framed_byte.md)
  | setContrast (value b c : Byte) (p : List Byte)
  | setAllPixelsOn (on : Bool) (resA : BitVec 7) (b c : Byte) (p : List Byte)
  | setInverse (on : Bool) (resA : BitVec 7) (b c : Byte) (p : List Byte)
  -- controller command bytes of the character family (R111)
  | hdClear
  | hdHome (x : Bool)
  | hdEntryMode (inc shift : Bool)
  | hdDisplayControl (d c b : Bool)
  | hdFunctionSet (dl n f : Bool) (x : BitVec 2)
  | hdSetCgramAddr (a : BitVec 6)
  | hdSetDdramAddr (a : BitVec 7)
  -- interface nibbles (44_lifecycle.md R222)
  | nibIfaceReset
  | nibIface4bit
  -- controller command bytes of the graphic family (R113)
  | oledSetContrast (value : Byte)
  | oledAllOn (b : Bool)
  | oledInverse (b : Bool)
  | oledDisplay (b : Bool)
  deriving DecidableEq, Repr

/-- What can stand at the head of the block's port, one form per format of the opcode table. `req` is the request of 30_encoding.md
R100: a 32-bit word and the payload whose length is LEN. The other three are bare products of the command encoder; the spec gives
them an encoding and a transfer but no port (log entry 7). -/
inductive PortWord where
  | req (word : BitVec 32) (payload : List Byte)
  | hdCmd (byte : Byte)
  | hdNibble (nibble : BitVec 4)
  | oledCmd (bytes : List Byte)
  deriving DecidableEq, Repr

/-- Why the decoder reads no instruction from a port word. -/
inductive DecodeError where
  /-- an OP outside the opcode map (R103) -/
  | illegalOp (op : Byte)
  /-- a byte that matches no HD44780-CMD row: 0x00 and the cursor/display shift 0x10 to 0x1F, which the encoder does not produce
  (R111, 41_command_encoder.md R153) -/
  | notHd44780Command (byte : Byte)
  /-- a nibble other than the two of R222 -/
  | notInterfaceNibble (nibble : BitVec 4)
  /-- bytes that match no OLED-CMD row (R113) -/
  | notOledCommand (bytes : List Byte)
  deriving DecidableEq, Repr

/-- The status codes of 60_exceptions.md R300, by name. -/
inductive Status where
  | ok
  | notInitialized
  | alreadyInitialized
  | badIndex
  | badLength
  | badPosition
  | badOperand
  | unsupportedConfig
  | transport
  | illegalOp
  | unsupportedOp
  | sessionFailed
  | released
  deriving DecidableEq, Repr

/-- A response (30_encoding.md R106). `cause` is present only when the status is ERR_TRANSPORT. -/
structure Response where
  status : Status
  cause  : Option Cause
  data   : List Byte
  deriving DecidableEq, Repr

/-- The geometry one row of the variant table gives (10_state.md R40). -/
structure Geometry where
  family : Family
  width  : Byte
  height : Byte
  row0   : BitVec 7
  row1   : BitVec 7
  row2   : BitVec 7
  row3   : BitVec 7
  deriving DecidableEq, Repr

end Sys2Proof
end

