-- ==== Sys2Proof/Machine/Encoder.lean ====
section
/-! DEFINITION. The pure parts of the block: the status numbering (60_exceptions.md R300), the variant table (10_state.md R40), the
register numbers (R45) and the CommandEncoder (41_command_encoder.md R140 to R148). None of them reads or writes state (R140). -/

namespace Sys2Proof

/-- The 8-bit code of a status (60_exceptions.md R300). -/
def Status.code : Status → Byte
  | .ok                 => 0x00
  | .notInitialized     => 0x01
  | .alreadyInitialized => 0x02
  | .badIndex           => 0x03
  | .badLength          => 0x04
  | .badPosition        => 0x05
  | .badOperand         => 0x06
  | .unsupportedConfig  => 0x07
  | .transport          => 0x08
  | .illegalOp          => 0x09
  | .unsupportedOp      => 0x0A
  | .sessionFailed      => 0x0B
  | .released           => 0x0C

/-- The boolean collapse a legacy host adapter makes of a status (60_exceptions.md R310). It stands outside the block; nothing of the
block calls it. -/
def Status.collapse (st : Status) : Bool :=
  match st with
  | .ok => true
  | _   => false

end Sys2Proof

namespace Sys2Proof.Machine

/-- `bool01(b)` as a byte (00_scope.md R16). -/
def bool01 (b : Bool) : Byte := if b then 1 else 0

/-- The variant table (10_state.md R40). -/
def variantTable (p : Params) (code : Byte) : Option Geometry :=
  if code = 0x00 then some ⟨.char, 16, 2, 0x00, 0x40, 0x00, 0x00⟩
  else if code = 0x01 then some ⟨.char, 40, 2, 0x00, 0x40, 0x00, 0x00⟩
  else if code = 0x02 then some ⟨.char, 20, 4, 0x00, 0x40, 0x14, 0x54⟩
  else if code = 0x80 then some ⟨.graphic, p.gfxWidth, p.gfxHeight, 0x00, 0x00, 0x00, 0x00⟩
  else none

/-- The geometry INIT takes for a variant code: a row of the table that belongs to `P_FAMILY` (44_lifecycle.md R220). -/
def supportedVariant (p : Params) (code : Byte) : Option Geometry :=
  match variantTable p code with
  | some g => if g.family = p.family then some g else none
  | none   => none

/-- The register numbers READ_REG answers: 0x00 to 0x09 and 0x40 to 0x7F (10_state.md R45, 30_encoding.md R104). -/
def validReg (reg : Byte) : Bool := reg ≤ 0x09 || (0x40 ≤ reg && reg ≤ 0x7F)

/-- The result of an encoder function: `ok(byte)` or `err(code)` (41_command_encoder.md R140). -/
inductive EncResult where
  | ok (byte : Byte)
  | err (code : Status)
  deriving DecidableEq, Repr

/-- The error of an encoder result, if it is one. -/
def EncResult.error? : EncResult → Option Status
  | .ok _  => none
  | .err e => some e

/-- R141. -/
def encClear : EncResult := .ok 0x01

/-- R142: bit 0 is don't-care on the controller and is sent as 0. -/
def encHome : EncResult := .ok 0x02

/-- R143. -/
def encEntryMode (inc shift : Bool) : EncResult := .ok (0x04 ||| (bool01 inc <<< 1) ||| bool01 shift)

/-- R144. -/
def encDisplayControl (flags : BitVec 3) : EncResult := .ok (0x08 ||| flags.setWidth 8)

/-- R145: an 8-bit bus width is not supported by a block whose expander carries four data lines. -/
def encFunctionSet (dl n f : Bool) : EncResult :=
  if dl then .err .unsupportedConfig
  else .ok (0x20 ||| (bool01 dl <<< 4) ||| (bool01 n <<< 3) ||| (bool01 f <<< 2))

/-- R146. -/
def encSetCgram (off : Byte) : EncResult := if 0x3F < off then .err .badOperand else .ok (0x40 ||| off)

/-- R147. -/
def encSetDdram (off : Byte) : EncResult := if 0x7F < off then .err .badOperand else .ok (0x80 ||| off)

/-- R148: two command bytes. -/
def encContrast (v : Byte) : Byte × Byte := (0x81, v)

/-- R148. -/
def encAllOn (b : Bool) : EncResult := .ok (0xA4 ||| bool01 b)

/-- R148. -/
def encInverse (b : Bool) : EncResult := .ok (0xA6 ||| bool01 b)

/-- R148. -/
def encDisplay (b : Bool) : EncResult := .ok (0xAE ||| bool01 b)

end Sys2Proof.Machine
end

