-- ==== Sys2Proof/Decode.lean ====
section
/-! DEFINITION. Decoding a port word into an instruction, total and rejecting by name (30_encoding.md R100 to R105, R109), and after
it the encoder, written from the same tables. -/

namespace Sys2Proof

/-- Bit `k` of an operand byte: a boolean operand is one bit, 1 = true (30_encoding.md R101). -/
def operandBit (v : Byte) (k : Nat) : Bool := v.getLsbD k

/-- The fields OP, A, B and C of a request word (R100). -/
def fieldOp (w : BitVec 32) : Byte := w.extractLsb' 24 8
/-- A, bits [23:16] (R100). -/
def fieldA (w : BitVec 32) : Byte := w.extractLsb' 16 8
/-- B, bits [15:8] (R100). -/
def fieldB (w : BitVec 32) : Byte := w.extractLsb' 8 8
/-- C, bits [7:0] (R100). -/
def fieldC (w : BitVec 32) : Byte := w.extractLsb' 0 8

/-- The request an OP names (R102), with the operand bytes A, B, C and the payload. OP alone selects the rule (R109); for the three
opcodes defined for both families the family does (R102). -/
def decodeRequest (fam : Family) (op a b c : Byte) (p : List Byte) : Except DecodeError Instr :=
  match op.toNat with
  | 0x01 => .ok (.init a (operandBit b 0) (operandBit b 1) (b.extractLsb' 2 6) c p)
  | 0x02 => .ok (.teardown a b c p)
  | 0x03 => .ok (.readReg a b c p)
  | 0x10 => .ok (.clear a b c p)
  | 0x11 => .ok (.home a b c p)
  | 0x12 => .ok (.setPos a b c p)
  | 0x13 => .ok (.writeText a b c p)
  | 0x14 => .ok (.writeTextAtLine a b c p)
  | 0x15 => .ok (.setCursorStyle (operandBit a 0) (operandBit a 1) (a.extractLsb' 2 6) b c p)
  | 0x16 =>
    match fam with
    | .char    => .ok (.setDisplayOnChar (operandBit a 0) (a.extractLsb' 1 7) b c p)
    | .graphic => .ok (.setDisplayOnGraphic (operandBit a 0) (a.extractLsb' 1 7) b c p)
  | 0x17 => .ok (.setBacklight (operandBit a 0) (a.extractLsb' 1 7) b c p)
  | 0x18 => .ok (.setGlyph a b c p)
  | 0x19 => .ok (.setAllGlyphs a b c p)
  | 0x1A => .ok (.getGlyph a b c p)
  | 0x1B => .ok (.getAllGlyphs a b c p)
  | 0x20 =>
    match fam with
    | .char    => .ok (.writeCommandChar a b c p)
    | .graphic => .ok (.writeCommandGraphic a b c p)
  | 0x21 =>
    match fam with
    | .char    => .ok (.writeDataChar a b c p)
    | .graphic => .ok (.writeDataGraphic a b c p)
  | 0x22 => .ok (.writeDataStream a b c p)
  | 0x30 => .ok (.cmdEntryMode (operandBit a 1) (operandBit a 0) (a.extractLsb' 2 6) b c p)
  | 0x31 => .ok (.cmdFunctionSet (operandBit a 2) (operandBit a 1) (operandBit a 0) (a.extractLsb' 3 5) b c p)
  | 0x32 => .ok (.cmdSetCgram a b c p)
  | 0x33 => .ok (.cmdSetDdram a b c p)
  | 0x40 => .ok (.setContrast a b c p)
  | 0x41 => .ok (.setAllPixelsOn (operandBit a 0) (a.extractLsb' 1 7) b c p)
  | 0x42 => .ok (.setInverse (operandBit a 0) (a.extractLsb' 1 7) b c p)
  | _    => .error (.illegalOp op)

/-- The controller command a byte of the character family is (R111): the position of the leading 1 selects the row. -/
def decodeHd44780 (v : Byte) : Except DecodeError Instr :=
  if v.getLsbD 7 then .ok (.hdSetDdramAddr (v.extractLsb' 0 7))
  else if v.getLsbD 6 then .ok (.hdSetCgramAddr (v.extractLsb' 0 6))
  else if v.getLsbD 5 then .ok (.hdFunctionSet (v.getLsbD 4) (v.getLsbD 3) (v.getLsbD 2) (v.extractLsb' 0 2))
  else if v.getLsbD 4 then .error (.notHd44780Command v)
  else if v.getLsbD 3 then .ok (.hdDisplayControl (v.getLsbD 2) (v.getLsbD 1) (v.getLsbD 0))
  else if v.getLsbD 2 then .ok (.hdEntryMode (v.getLsbD 1) (v.getLsbD 0))
  else if v.getLsbD 1 then .ok (.hdHome (v.getLsbD 0))
  else if v.getLsbD 0 then .ok .hdClear
  else .error (.notHd44780Command v)

/-- The interface nibble a 4-bit value is (44_lifecycle.md R222). -/
def decodeNibble (n : BitVec 4) : Except DecodeError Instr :=
  if n = 0x3 then .ok .nibIfaceReset
  else if n = 0x2 then .ok .nibIface4bit
  else .error (.notInterfaceNibble n)

/-- The controller command the bytes of the graphic family are (R113): contrast is two bytes, the others one. -/
def decodeOled (bytes : List Byte) : Except DecodeError Instr :=
  match bytes with
  | [c, v] => if c = 0x81 then .ok (.oledSetContrast v) else .error (.notOledCommand bytes)
  | [c] =>
    if c.extractLsb' 1 7 = 0x52 then .ok (.oledAllOn (c.getLsbD 0))
    else if c.extractLsb' 1 7 = 0x53 then .ok (.oledInverse (c.getLsbD 0))
    else if c.extractLsb' 1 7 = 0x57 then .ok (.oledDisplay (c.getLsbD 0))
    else .error (.notOledCommand bytes)
  | _ => .error (.notOledCommand bytes)

/-- The instruction a port word is, in a block of family `fam`. -/
def decode (fam : Family) : PortWord → Except DecodeError Instr
  | .req w p     => decodeRequest fam (fieldOp w) (fieldA w) (fieldB w) (fieldC w) p
  | .hdCmd v     => decodeHd44780 v
  | .hdNibble n  => decodeNibble n
  | .oledCmd bs  => decodeOled bs

/-- A request word of its four fields (R100). -/
def requestWord (op a b c : Byte) : BitVec 32 := op ++ a ++ b ++ c

/-- An operand byte of seven reserved bits over one boolean (R105). -/
def packBit (res : BitVec 7) (b0 : Bool) : Byte := res ++ BitVec.ofBool b0

/-- An operand byte of six reserved bits over two booleans (R105). -/
def packBits2 (res : BitVec 6) (b1 b0 : Bool) : Byte := res ++ BitVec.ofBool b1 ++ BitVec.ofBool b0

/-- An operand byte of five reserved bits over three booleans (R105). -/
def packBits3 (res : BitVec 5) (b2 b1 b0 : Bool) : Byte := res ++ BitVec.ofBool b2 ++ BitVec.ofBool b1 ++ BitVec.ofBool b0

/-- The port word of an instruction: the opcode map of R102 and the byte tables of R111, R113 and R222, read the other way. -/
def encode : Instr → PortWord
  | .init v bl on r c p               => .req (requestWord 0x01 v (packBits2 r on bl) c) p
  | .teardown a b c p                 => .req (requestWord 0x02 a b c) p
  | .readReg r b c p                  => .req (requestWord 0x03 r b c) p
  | .clear a b c p                    => .req (requestWord 0x10 a b c) p
  | .home a b c p                     => .req (requestWord 0x11 a b c) p
  | .setPos x y c p                   => .req (requestWord 0x12 x y c) p
  | .writeText a b c p                => .req (requestWord 0x13 a b c) p
  | .writeTextAtLine r b c p          => .req (requestWord 0x14 r b c) p
  | .setCursorStyle vis blk r b c p   => .req (requestWord 0x15 (packBits2 r blk vis) b c) p
  | .setDisplayOnChar on r b c p      => .req (requestWord 0x16 (packBit r on) b c) p
  | .setDisplayOnGraphic on r b c p   => .req (requestWord 0x16 (packBit r on) b c) p
  | .setBacklight on r b c p          => .req (requestWord 0x17 (packBit r on) b c) p
  | .setGlyph k b c p                 => .req (requestWord 0x18 k b c) p
  | .setAllGlyphs a b c p             => .req (requestWord 0x19 a b c) p
  | .getGlyph k b c p                 => .req (requestWord 0x1A k b c) p
  | .getAllGlyphs a b c p             => .req (requestWord 0x1B a b c) p
  | .writeCommandChar v b c p         => .req (requestWord 0x20 v b c) p
  | .writeCommandGraphic v b c p      => .req (requestWord 0x20 v b c) p
  | .writeDataChar v b c p            => .req (requestWord 0x21 v b c) p
  | .writeDataGraphic v b c p         => .req (requestWord 0x21 v b c) p
  | .writeDataStream a b c p          => .req (requestWord 0x22 a b c) p
  | .cmdEntryMode inc sh r b c p      => .req (requestWord 0x30 (packBits2 r inc sh) b c) p
  | .cmdFunctionSet dl n f r b c p    => .req (requestWord 0x31 (packBits3 r dl n f) b c) p
  | .cmdSetCgram o b c p              => .req (requestWord 0x32 o b c) p
  | .cmdSetDdram o b c p              => .req (requestWord 0x33 o b c) p
  | .setContrast v b c p              => .req (requestWord 0x40 v b c) p
  | .setAllPixelsOn on r b c p        => .req (requestWord 0x41 (packBit r on) b c) p
  | .setInverse on r b c p            => .req (requestWord 0x42 (packBit r on) b c) p
  | .hdClear                          => .hdCmd 0x01
  | .hdHome x                         => .hdCmd ((1 : BitVec 7) ++ BitVec.ofBool x)
  | .hdEntryMode inc sh               => .hdCmd ((1 : BitVec 6) ++ BitVec.ofBool inc ++ BitVec.ofBool sh)
  | .hdDisplayControl d c b           => .hdCmd ((1 : BitVec 5) ++ BitVec.ofBool d ++ BitVec.ofBool c ++ BitVec.ofBool b)
  | .hdFunctionSet dl n f x           => .hdCmd ((1 : BitVec 3) ++ BitVec.ofBool dl ++ BitVec.ofBool n ++ BitVec.ofBool f ++ x)
  | .hdSetCgramAddr a                 => .hdCmd ((1 : BitVec 2) ++ a)
  | .hdSetDdramAddr a                 => .hdCmd ((1 : BitVec 1) ++ a)
  | .nibIfaceReset                    => .hdNibble 0x3
  | .nibIface4bit                     => .hdNibble 0x2
  | .oledSetContrast v                => .oledCmd [0x81, v]
  | .oledAllOn b                      => .oledCmd [(0x52 : BitVec 7) ++ BitVec.ofBool b]
  | .oledInverse b                    => .oledCmd [(0x53 : BitVec 7) ++ BitVec.ofBool b]
  | .oledDisplay b                    => .oledCmd [(0x57 : BitVec 7) ++ BitVec.ofBool b]

/-- Whether a row of the opcode table is decoded in a block of family `fam`: the three opcodes defined for both families decode to the
row of the block's own family (R102); every other row decodes in both. -/
def Instr.decodesIn (fam : Family) : Instr → Bool
  | .setDisplayOnChar _ _ _ _ _ | .writeCommandChar _ _ _ _ | .writeDataChar _ _ _ _          => fam == .char
  | .setDisplayOnGraphic _ _ _ _ _ | .writeCommandGraphic _ _ _ _ | .writeDataGraphic _ _ _ _ => fam == .graphic
  | _ => true

/-- The operand names of the textual notation of the test vectors and the values they stand for (R107), in the order the vectors write
them. Reserved bits have no name there: the notation writes well-formed requests only. A bare controller byte has no notation. -/
def Instr.textOperands : Instr → List (String × Nat)
  | .init v bl on _ _ _                => [("variant", v.toNat), ("bl", bl.toNat), ("on", on.toNat)]
  | .readReg reg _ _ _                 => [("reg", reg.toNat)]
  | .setPos x y _ _                    => [("x", x.toNat), ("y", y.toNat)]
  | .writeTextAtLine row _ _ _         => [("row", row.toNat)]
  | .setCursorStyle vis blk _ _ _ _    => [("visible", vis.toNat), ("blink", blk.toNat)]
  | .setDisplayOnChar on _ _ _ _ | .setDisplayOnGraphic on _ _ _ _ | .setBacklight on _ _ _ _ | .setAllPixelsOn on _ _ _ _
  | .setInverse on _ _ _ _             => [("on", on.toNat)]
  | .setGlyph k _ _ _ | .getGlyph k _ _ _ => [("index", k.toNat)]
  | .writeCommandChar v _ _ _ | .writeCommandGraphic v _ _ _ | .writeDataChar v _ _ _ | .writeDataGraphic v _ _ _ =>
    [("byte", v.toNat)]
  | .cmdEntryMode inc sh _ _ _ _       => [("inc", inc.toNat), ("shift", sh.toNat)]
  | .cmdFunctionSet dl n f _ _ _ _     => [("dl", dl.toNat), ("n", n.toNat), ("f", f.toNat)]
  | .cmdSetCgram o _ _ _ | .cmdSetDdram o _ _ _ => [("offset", o.toNat)]
  | .setContrast v _ _ _               => [("value", v.toNat)]
  | .teardown _ _ _ _ | .clear _ _ _ _ | .home _ _ _ _ | .writeText _ _ _ _ | .setAllGlyphs _ _ _ _ | .getAllGlyphs _ _ _ _
  | .writeDataStream _ _ _ _ | .hdClear | .hdHome _ | .hdEntryMode _ _ | .hdDisplayControl _ _ _ | .hdFunctionSet _ _ _ _
  | .hdSetCgramAddr _ | .hdSetDdramAddr _ | .nibIfaceReset | .nibIface4bit | .oledSetContrast _ | .oledAllOn _ | .oledInverse _
  | .oledDisplay _                     => []

/-- The port word the bits of an opcode-table row stand for. A row of 32 bits is a request word; its payload is empty, since every
bit above the row's is 0. A bare number of 8 bits or fewer does not say which byte format it belongs to: the values the graphic
encoder produces are read as graphic commands (the contrast command with the value byte 0), 0x03 as the interface-reset nibble (the
encoder never sends 0x03 as a HOME, R142), a number of 4 bits as a nibble, and every other value as a character-family command
(log entry 8). -/
def tableWord (nbits w : Nat) : PortWord :=
  if 8 < nbits then .req (BitVec.ofNat 32 w) []
  else if nbits ≤ 4 then .hdNibble (BitVec.ofNat 4 w)
  else if w = 0x81 then .oledCmd [0x81, 0x00]
  else if w / 2 = 0x52 ∨ w / 2 = 0x53 ∨ w / 2 = 0x57 then .oledCmd [BitVec.ofNat 8 w]
  else if w = 0x03 then .hdNibble 0x3
  else .hdCmd (BitVec.ofNat 8 w)

/-- The instruction the decoder reads from an opcode-table row's bits, in a block of the family State.reset has. -/
def decodeTableWord (nbits w : Nat) : Option Instr := (decode .char (tableWord nbits w)).toOption

end Sys2Proof
end

