-- ==== Sys2Proof/Machine/State.lean ====
section
/-! DEFINITION. The state of the block (10_state.md), the events and faults of the model, and the state after reset
(70_reset_and_hazards.md R340). -/

namespace Sys2Proof.Machine

/-- The lifecycle field: 0, 1, 2 and 3 of its two bits, in this order (10_state.md R32). -/
inductive Lifecycle where
  | uninitialized
  | ready
  | failed
  | released
  deriving DecidableEq, Repr

/-- The kinds of mandatory wait (00_scope.md R17; the kinds are those of 42_nibble_strobe.md R170, 44_lifecycle.md R221 and
45_high_level_ops.md R250). -/
inductive WaitKind where
  | powerOn
  | reset
  | settle4
  | latch
  | proc
  | clear
  | home
  deriving DecidableEq, Repr

/-- The events of a trace (00_scope.md R17): a bus transaction to an address with its bytes in order of transmission, a wait of a kind
for at least a duration, the release of the transport handle. -/
inductive Event where
  | bus (addr : BitVec 7) (bytes : List Byte)
  | wait (kind : WaitKind) (atLeast : Nat)
  | release
  deriving DecidableEq, Repr

/-- The glyph store as (offset, byte) pairs (10_state.md R42, 20_memory.md R72). An offset that is not listed does not exist. -/
abbrev Memory := List Host.Cell

/-- The canonical form of the store: exactly the offsets 0 to 63, rising (20_memory.md R72, R80). Two stores that hold the same bytes are
the same list. -/
abbrev Memory.wf (m : Memory) : Prop := m.map Prod.fst = List.range 64

/-- The environment of the block: the model's own state, not the spec's (log entry 5). `answers` are the coming answers of the transport;
when they run out, the answers are drawn from the opaque `Config.busAnswer`, and `draws` counts the draws. `waits` is the number of
waits the host still serves, or none when it serves all of them. -/
structure Env where
  answers : List BusAnswer
  draws   : Nat
  waits   : Option Nat
  deriving DecidableEq, Repr

/-- The state of the block. `port` is the request stream (10_state.md R31), oldest first; `trace` is every event of the session, oldest
first, and `response` the last response (00_scope.md R17). -/
structure State where
  /-- the parameters, fixed for the block's lifetime (70_reset_and_hazards.md R340) -/
  params      : Params
  /-- `LIFECYCLE` (R32) -/
  lifecycle   : Lifecycle
  /-- `BUS_DESYNC` (R33) -/
  busDesync   : Bool
  /-- `LAST_STATUS` (R35) -/
  lastStatus  : Byte
  /-- `DISPLAY_ON` (R36) -/
  displayOn   : Bool
  /-- `CURSOR_ON` (R36) -/
  cursorOn    : Bool
  /-- `BLINK_ON` (R36) -/
  blinkOn     : Bool
  /-- `BACKLIGHT` (R36) -/
  backlight   : Bool
  /-- `VARIANT` (R39) -/
  variant     : Byte
  /-- `WIDTH` (R39) -/
  width       : Byte
  /-- `HEIGHT` (R39) -/
  height      : Byte
  /-- `LINE_OFFSET[0]` (R39) -/
  lineOffset0 : BitVec 7
  /-- `LINE_OFFSET[1]` (R39) -/
  lineOffset1 : BitVec 7
  /-- `LINE_OFFSET[2]` (R39) -/
  lineOffset2 : BitVec 7
  /-- `LINE_OFFSET[3]` (R39) -/
  lineOffset3 : BitVec 7
  /-- `STORE` (R42) -/
  store       : Memory
  /-- `HANDLE_HELD` (R48) -/
  handleHeld  : Bool
  /-- the request stream (R31) -/
  port        : List PortWord
  /-- the trace of the session (00_scope.md R17) -/
  trace       : List Event
  /-- the last response (30_encoding.md R106) -/
  response    : Option Response
  /-- the model's own field: what the environment will do (log entry 5) -/
  env         : Env
  deriving DecidableEq, Repr

/-- `FAMILY` equals `P_FAMILY`; it is hard-wired and no request writes it (10_state.md R34), so it is read from the parameters. -/
abbrev State.family (s : State) : Family := s.params.family

/-- Why the block stops. -/
inductive Fault where
  /-- The transport never answers a bus transaction, so the request never completes (60_exceptions.md R309, U6). Raised by a bus event
  whose answer is `never`. Safe: the spec's own stuck state. -/
  | transportSilent
  /-- The host's wait primitive never returns, so the request never completes (R309, U6). Raised by a wait event when the host serves no
  more waits. Safe: the spec's own stuck state. -/
  | waitUnserved
  /-- A store offset that the store does not list is read. Raised by READ_REG, GET_GLYPH and GET_ALL_GLYPHS only in a state whose store is
  not in canonical form, which no run reaches. Safe. -/
  | storeHole
  /-- LINE_OFFSET is read at a row above 3. Raised by SET_POS and WRITE_TEXT_AT_LINE only in a state whose HEIGHT is above 4, which no run of
  a CHAR block reaches. Safe. -/
  | rowMissing
  deriving DecidableEq, Repr

/-- What has no meaning. -/
inductive Refusal where
  /-- An instruction whose arm of exec is not written yet, by its mnemonic. Raised by exec only. Safe. No arm raises it now. -/
  | notModelled (mnemonic : String)
  /-- A bare controller byte, nibble or byte list that is no row of the opcode table, so no product of the encoder (41_command_encoder.md
  R153). Raised by step when decoding gives no instruction. Safe. -/
  | notEncoderProduct
  deriving DecidableEq, Repr

/-- What a step, or the meaning of an instruction, answers. -/
abbrev Result := Host.Outcome State Fault Refusal

/-- The store at reset: every offset listed, each with its own arbitrary draw (10_state.md R43, U1; log entry 6). -/
def Memory.atReset : Memory := (List.range 64).map fun k => (k, Config.storeDraw k)

/-- A block built with parameters `q`, right after its construction (70_reset_and_hazards.md R340; the values are those of 10_state.md
R32 to R48). No request has arrived (log entry 1), no response has been given (log entry 2), and the environment is the model's own
field (log entry 5). -/
def State.resetWith (q : Params) : State where
  params      := q
  lifecycle   := .uninitialized
  busDesync   := false
  lastStatus  := 0x00
  displayOn   := false
  cursorOn    := false
  blinkOn     := false
  backlight   := false
  variant     := 0xFF
  width       := 0
  height      := 0
  lineOffset0 := 0x00
  lineOffset1 := 0x00
  lineOffset2 := 0x00
  lineOffset3 := 0x00
  store       := Memory.atReset
  handleHeld  := true
  port        := []
  trace       := []
  response    := none
  env         := { answers := [], draws := 0, waits := none }

/-- The machine right after reset: the block with the parameters of Config (log entries 3 and 4). -/
def State.reset : State := State.resetWith Config.params

end Sys2Proof.Machine
end

