-- ==== Sys2Proof/Machine/Flags.lean ====
section
/-! DEFINITION. The flags: the DisplayFlags byte sent to the controller (10_state.md R37) and the bit layouts of the STATUS and FLAGS
registers (R45). -/

namespace Sys2Proof.Machine

/-- `bool01(b)` on three bits (00_scope.md R16). -/
def bit3 (b : Bool) : BitVec 3 := if b then 1 else 0

/-- `flagsByte(st)`, computed only when it is sent (10_state.md R37). -/
def flagsByte (s : State) : BitVec 3 := (bit3 s.displayOn <<< 2) ||| (bit3 s.cursorOn <<< 1) ||| bit3 s.blinkOn

/-- The two bits of the lifecycle field (R32). -/
def Lifecycle.code : Lifecycle → Byte
  | .uninitialized => 0
  | .ready         => 1
  | .failed        => 2
  | .released      => 3

/-- The bit of the family field (R34). -/
def familyCode (f : Family) : Byte :=
  match f with
  | .char    => 0
  | .graphic => 1

/-- Register 0x00 STATUS: [1:0] LIFECYCLE, [2] BUS_DESYNC, [4] FAMILY, the other bits 0 (R45). -/
def statusRegister (s : State) : Byte := s.lifecycle.code ||| (bool01 s.busDesync <<< 2) ||| (familyCode s.family <<< 4)

/-- Register 0x01 FLAGS: [0] BLINK_ON, [1] CURSOR_ON, [2] DISPLAY_ON, [3] BACKLIGHT, [7:4] 0 (R45). -/
def flagsRegister (s : State) : Byte :=
  bool01 s.blinkOn ||| (bool01 s.cursorOn <<< 1) ||| (bool01 s.displayOn <<< 2) ||| (bool01 s.backlight <<< 3)

end Sys2Proof.Machine
end

