-- ==== Sys2Proof/Machine/Protocol.lean ====
section
/-! DEFINITION. The two transfer protocols as lists of events: the NibbleStrobeProtocol of the character family (42_nibble_strobe.md) and
the FramedByteProtocol of the graphic family (43_framed_byte.md). `q` are the block's parameters and `bl` is `st.BACKLIGHT`, which no
request changes between its transfers (R173). Running a list of events against the transport is `emit` in Ops.lean. -/

namespace Sys2Proof.Machine

/-- `M_RS` (00_scope.md R11). -/
def maskRs : Byte := 0x01

/-- The latch-low frame of a nibble: data in bits [7:4], RS, BL, with RW and EN 0 (30_encoding.md R110, 42_nibble_strobe.md R170). -/
def frame (q : Params) (bl : Bool) (n : BitVec 4) (rs : Bool) : Byte :=
  (n.setWidth 8 <<< 4) ||| (if rs then maskRs else 0) ||| (if bl then q.maskBl else 0)

/-- One bus transaction to `P_BUS_ADDR` (00_scope.md R10, R17). -/
def busEvent (q : Params) (bytes : List Byte) : Event := .bus q.busAddr bytes

/-- `NibbleXfer(n, rs)`: three transactions and two waits (R170). -/
def nibbleXfer (q : Params) (bl : Bool) (n : BitVec 4) (rs : Bool) : List Event :=
  let f := frame q bl n rs
  [busEvent q [f], busEvent q [f ||| q.maskEn], .wait .latch q.tLatch, busEvent q [f], .wait .proc q.tProc]

/-- The high nibble `v[7:4]` of a controller byte. -/
def highNibble (v : Byte) : BitVec 4 := v.extractLsb' 4 4

/-- The low nibble `v[3:0]` of a controller byte. -/
def lowNibble (v : Byte) : BitVec 4 := v.extractLsb' 0 4

/-- `ByteXfer(v, rs)`: the high nibble first, then the low one (R171, 20_memory.md R76). `rs` is false for the command register and true for
the data register. -/
def byteXfer (q : Params) (bl : Bool) (v : Byte) (rs : Bool) : List Event :=
  nibbleXfer q bl (highNibble v) rs ++ nibbleXfer q bl (lowNibble v) rs

/-- One data byte after another (45_high_level_ops.md R254, R260, R261). -/
def dataXfers (q : Params) (bl : Bool) (bytes : List Byte) : List Event :=
  bytes.flatMap fun b => byteXfer q bl b true

/-- `BacklightXfer()`: one transaction with no data bits and the latch low, and no wait (R177). -/
def backlightXfer (q : Params) (bl : Bool) : List Event := [busEvent q [if bl then q.maskBl else 0x00]]

/-- `FramedCmd(c)` (R190). -/
def framedCmd (q : Params) (c : Byte) : List Event := [busEvent q [q.ctrlCmd, c]]

/-- `FramedData1(d)` (R191). -/
def framedData1 (q : Params) (d : Byte) : List Event := [busEvent q [q.ctrlData1, d]]

/-- `FramedStream(p)`: the control code alone, then the payload (R192). -/
def framedStream (q : Params) (p : List Byte) : List Event := [busEvent q [q.ctrlStream], busEvent q p]

/-- The events that send an encoder result in the character family as a command byte; an error sends nothing (41_command_encoder.md
R140). -/
def sendHd (q : Params) (bl : Bool) (r : EncResult) : List Event :=
  match r with
  | .ok b  => byteXfer q bl b false
  | .err _ => []

/-- The events that send an encoder result in the graphic family. -/
def sendOled (q : Params) (r : EncResult) : List Event :=
  match r with
  | .ok b  => framedCmd q b
  | .err _ => []

/-- `ClearSeq()` (45_high_level_ops.md R250). -/
def clearSeq (q : Params) (bl : Bool) : List Event :=
  sendHd q bl encClear ++ [.wait .clear q.tClear] ++ sendHd q bl encHome ++ [.wait .home q.tHome]

/-- The byte sequence of HOME (R251). -/
def homeSeq (q : Params) (bl : Bool) : List Event := sendHd q bl encHome ++ [.wait .home q.tHome]

/-- The interface-reset nibble 0x3 (44_lifecycle.md R222). -/
def ifaceReset (q : Params) (bl : Bool) : List Event := nibbleXfer q bl 0x3 false

/-- The 4-bit switch nibble 0x2 (R222). -/
def iface4bit (q : Params) (bl : Bool) : List Event := nibbleXfer q bl 0x2 false

/-- Steps 1 to 5 of `CharInit()`, with `flags` the DisplayFlags byte (44_lifecycle.md R221, R223). -/
def charInitSeq (q : Params) (bl : Bool) (flags : BitVec 3) : List Event :=
  [.wait .powerOn q.tPowerOn] ++
  ifaceReset q bl ++ [.wait .reset q.tReset1] ++
  ifaceReset q bl ++ [.wait .reset q.tReset2] ++
  ifaceReset q bl ++ [.wait .reset q.tReset3] ++
  iface4bit q bl ++
  [.wait .settle4 q.tSettle4] ++
  sendHd q bl (encFunctionSet false true false) ++
  sendHd q bl (encDisplayControl flags) ++
  sendHd q bl (encEntryMode true false)

/-- `GraphicInitSeq()` (43_framed_byte.md R201). -/
def graphicInitSeq (q : Params) (on : Bool) : List Event :=
  (q.gfxInitSeq.flatMap fun c => framedCmd q c) ++ sendOled q (encDisplay on)

/-- The expander's 8-bit output port after a list of events every one of which was acknowledged: the byte of the last single-byte
transaction (60_exceptions.md R318); none if there is none. -/
def expanderPort (evs : List Event) : Option Byte :=
  evs.foldl (fun last e =>
    match e with
    | .bus _ [b] => some b
    | _          => last) none

/-- Whether an event is a bus transaction. -/
def Event.isBus : Event → Bool
  | .bus _ _  => true
  | .wait _ _ => false
  | .release  => false

/-- Whether an event is a wait. -/
def Event.isWait : Event → Bool
  | .bus _ _  => false
  | .wait _ _ => true
  | .release  => false

/-- Whether an event is the release of the transport handle. -/
def Event.isRelease : Event → Bool
  | .bus _ _  => false
  | .wait _ _ => false
  | .release  => true

/-- How many bus transactions a trace holds (70_reset_and_hazards.md R353). -/
def busCount (evs : List Event) : Nat := evs.countP Event.isBus

/-- How many waits a trace holds (R353). -/
def waitCount (evs : List Event) : Nat := evs.countP Event.isWait

/-- How many releases a trace holds (R353). -/
def releaseCount (evs : List Event) : Nat := evs.countP Event.isRelease

/-- The part of a trace up to and with its bus transaction number `k`, counted from 0: what is left of it when that transaction fails
(60_exceptions.md R308). All of it, if it has no such transaction. -/
def cutAfterBus : Nat → List Event → List Event
  | _,     []              => []
  | 0,     .bus a bs :: _   => [.bus a bs]
  | k + 1, .bus a bs :: evs => .bus a bs :: cutAfterBus k evs
  | k,     .wait w t :: evs => .wait w t :: cutAfterBus k evs
  | k,     .release :: evs  => .release :: cutAfterBus k evs

end Sys2Proof.Machine
end

