-- ==== Sys2Proof/Machine/Ops.lean ====
section
/-! DEFINITION. The shared operations: reading and writing the glyph store, the environment's answers, emitting events, responding,
raising an error (the block's only exception, 60_exceptions.md R313), running a request behind its checks (R302), and taking the next
request from the port (10_state.md R31). -/

namespace Sys2Proof.Machine

-- the glyph store (20_memory.md R72)

/-- The byte at an offset of the store; none where the store lists no such offset. -/
def Memory.read (m : Memory) (a : Nat) : Option Byte :=
  match m with
  | []            => none
  | (k, v) :: rest => if k = a then some v else Memory.read rest a

/-- `MemRead(STORE, a, n)`: the bytes at a, a+1, …, in index order (R72). -/
def Memory.readN (m : Memory) (a : Nat) : Nat → Option (List Byte)
  | 0     => some []
  | n + 1 =>
    match Memory.read m a, Memory.readN m (a + 1) n with
    | some b, some bs => some (b :: bs)
    | _,      _       => none

/-- Writes one byte at an offset, at its place in the rising order. -/
def Memory.write (m : Memory) (a : Nat) (b : Byte) : Memory :=
  match m with
  | []            => [(a, b)]
  | (k, v) :: rest =>
    if a < k then (a, b) :: (k, v) :: rest
    else if a = k then (a, b) :: rest
    else (k, v) :: Memory.write rest a b

/-- `MemWrite(STORE, a, n, bytes)`: the bytes in index order (R72). -/
def Memory.writeN (m : Memory) (a : Nat) (bytes : List Byte) : Memory :=
  match bytes with
  | []      => m
  | b :: bs => Memory.writeN (Memory.write m a b) (a + 1) bs

-- the environment (log entry 5)

/-- The next answer of the transport, and the environment after it (00_scope.md R8, U5). -/
def Env.takeAnswer (e : Env) : BusAnswer × Env :=
  match e.answers with
  | a :: rest => (a, { e with answers := rest })
  | []        => (Config.busAnswer e.draws, { e with draws := e.draws + 1 })

/-- The environment after the host has served one wait; none if its wait primitive never returns (60_exceptions.md R309). -/
def Env.takeWait (e : Env) : Option Env :=
  match e.waits with
  | none       => some e
  | some 0     => none
  | some (k + 1) => some { e with waits := some k }

/-- The transport's answer to the k-th coming transaction, counted from 0. -/
def Env.answer (e : Env) (k : Nat) : BusAnswer :=
  match e.answers[k]? with
  | some a => a
  | none   => Config.busAnswer (e.draws + (k - e.answers.length))

/-- The transport answers `ok` to the next `n` transactions. -/
abbrev Env.acksBus (e : Env) (n : Nat) : Prop := ∀ k, k < n → e.answer k = .ok

/-- The host serves the next `n` waits. -/
abbrev Env.servesWaits (e : Env) (n : Nat) : Prop := n ≤ e.waits.getD n

/-- The environment after `n` answered transactions and `w` served waits. -/
def Env.after (e : Env) (n w : Nat) : Env where
  answers := e.answers.drop n
  draws   := e.draws + (n - e.answers.length)
  waits   := e.waits.map fun m => m - w

-- updates of the state

/-- Appends an event to the trace, with the environment after it. -/
def State.logEvent (s : State) (ev : Event) (e : Env) : State := { s with trace := s.trace ++ [ev], env := e }

/-- The state after all of `evs` were emitted, every transaction acknowledged and every wait served. -/
def State.sent (s : State) (evs : List Event) : State :=
  { s with trace := s.trace ++ evs, env := s.env.after (busCount evs) (waitCount evs) }

/-- The environment lets all of `evs` happen: the transport acknowledges its transactions and the host serves its waits. -/
abbrev State.letsThrough (s : State) (evs : List Event) : Prop :=
  s.env.acksBus (busCount evs) ∧ s.env.servesWaits (waitCount evs)

/-- `st.LIFECYCLE <- l`. -/
def State.setLifecycle (s : State) (l : Lifecycle) : State := { s with lifecycle := l }

/-- `st.BUS_DESYNC <- 1` (10_state.md R33). -/
def State.setDesync (s : State) : State := { s with busDesync := true }

/-- The geometry writes of INIT (44_lifecycle.md R220). -/
def State.setGeometry (s : State) (code : Byte) (g : Geometry) : State :=
  { s with variant := code, width := g.width, height := g.height, lineOffset0 := g.row0, lineOffset1 := g.row1,
           lineOffset2 := g.row2, lineOffset3 := g.row3 }

/-- The four display flags (10_state.md R36). -/
def State.setFlags (s : State) (display cursor blink backlight : Bool) : State :=
  { s with displayOn := display, cursorOn := cursor, blinkOn := blink, backlight := backlight }

/-- `st.DISPLAY_ON <- on`. -/
def State.setDisplay (s : State) (on : Bool) : State := { s with displayOn := on }

/-- `st.CURSOR_ON` and `st.BLINK_ON`. -/
def State.setCursor (s : State) (visible blinking : Bool) : State := { s with cursorOn := visible, blinkOn := blinking }

/-- `st.BACKLIGHT <- on`. -/
def State.setBacklight (s : State) (on : Bool) : State := { s with backlight := on }

/-- Writes of the store. -/
def State.setStore (s : State) (m : Memory) : State := { s with store := m }

/-- The release of the transport handle (44_lifecycle.md R227): the event, `HANDLE_HELD <- false`, `LIFECYCLE <- RELEASED`. `Release()` does
not fail. -/
def State.releaseHandle (s : State) : State :=
  { s with trace := s.trace ++ [.release], handleHeld := false, lifecycle := .released }

-- responding and raising

/-- `respond(status, data)`: LAST_STATUS is written last, then the response is given (00_scope.md R17, 10_state.md R35). -/
def respond (st : Status) (data : List Byte) (s : State) : State :=
  { s with lastStatus := st.code, response := some { status := st, cause := none, data := data } }

/-- The response of READ_REG, which never writes LAST_STATUS (R35, 44_lifecycle.md R229). -/
def respondReadReg (st : Status) (data : List Byte) (s : State) : State :=
  { s with response := some { status := st, cause := none, data := data } }

/-- TAKING AN EXCEPTION. `raise E`: the request ends with status E and no data (00_scope.md R17). It writes LAST_STATUS and nothing else: no
program counter is saved, no mode changes, control goes to no vector, and the next request is taken from the port as usual
(60_exceptions.md R301, R307, R313). There is no return from it (R314). -/
def raise (e : Status) (s : State) : State := respond e [] s

/-- `raise TransportError(cause)` (R308), outside INIT: BUS_DESYNC and LAST_STATUS are written and the response carries the cause. Nothing is
rolled back. -/
def raiseTransport (cause : Cause) (s : State) : State :=
  { s.setDesync with
    lastStatus := Status.transport.code
    response   := some { status := .transport, cause := some cause, data := [] } }

/-- The same inside INIT: before READY the session becomes FAILED (R308, 44_lifecycle.md R225). -/
def raiseTransportInit (cause : Cause) (s : State) : State :=
  raiseTransport cause (if s.lifecycle = .ready then s else s.setLifecycle .failed)

-- emitting events

/-- How a list of events ends: all emitted, or ended by a transaction the transport answered `fail`, or stuck. -/
inductive Sent where
  | done (s : State)
  | failed (cause : Cause) (s : State)
  | stuck (why : Fault)
  deriving DecidableEq, Repr

/-- Emits events in order. A transaction takes the transport's answer, and a `fail` makes it the last event (00_scope.md R17,
60_exceptions.md R308). A wait takes the host's service. A transaction never answered, or a wait never served, leaves the block stuck
(R309). -/
def emit : List Event → State → Sent
  | [],                 s => .done s
  | .bus a bytes :: evs, s =>
    match s.env.takeAnswer with
    | (.ok, e)         => emit evs (s.logEvent (.bus a bytes) e)
    | (.fail cause, e) => .failed cause (s.logEvent (.bus a bytes) e)
    | (.never, _)      => .stuck .transportSilent
  | .wait k t :: evs,   s =>
    match s.env.takeWait with
    | some e => emit evs (s.logEvent (.wait k t) e)
    | none   => .stuck .waitUnserved
  | .release :: evs,    s => emit evs (s.logEvent .release s.env)

/-- Emits events and goes on with `next` if all were emitted; on a failure takes the transport error with `onFail`. -/
def traffic (onFail : Cause → State → State) (evs : List Event) (s : State) (next : State → Result) : Result :=
  match emit evs s with
  | .done t         => next t
  | .failed cause t => .next (onFail cause t)
  | .stuck why      => .fault why

/-- Emits events, then answers OK with no data: the body of a request that only sends (42_nibble_strobe.md R175 and the like). -/
def sendAndRespond (evs : List Event) (s : State) : Result :=
  traffic raiseTransport evs s fun t => .next (respond .ok [] t)

-- the checks of a request (60_exceptions.md R302)

/-- The Fam column of the opcode map (30_encoding.md R102). -/
inductive FamilyRule where
  | both
  | only (fam : Family)
  deriving DecidableEq, Repr

/-- The Life column of the opcode map (30_encoding.md R102). -/
inductive LifeRule where
  | uninitialized
  | any
  | ready
  deriving DecidableEq, Repr

/-- What a request is checked against, in the order of R302 steps 2 to 7: the Fam and Life columns, the reserved bits, the first operand
error, and whether LEN is in range. -/
structure Checks where
  fam          : FamilyRule
  life         : LifeRule
  reservedZero : Bool
  operand      : Option Status
  lengthOk     : Bool
  deriving DecidableEq, Repr

/-- Step 2 of R302: after TEARDOWN only TEARDOWN and READ_REG are answered (R304). -/
def releasedError (life : LifeRule) (l : Lifecycle) : Option Status :=
  match life with
  | .any           => none
  | .uninitialized => if l = .released then some .released else none
  | .ready         => if l = .released then some .released else none

/-- Step 3 of R302 (R305). -/
def familyError (rule : FamilyRule) (fam : Family) : Option Status :=
  match rule with
  | .both   => none
  | .only f => if f = fam then none else some .unsupportedOp

/-- Step 4 of R302 (R306, 44_lifecycle.md R226). -/
def lifecycleError (life : LifeRule) (l : Lifecycle) : Option Status :=
  match life with
  | .any           => none
  | .uninitialized =>
    match l with
    | .uninitialized => none
    | .ready         => some .alreadyInitialized
    | .failed        => some .sessionFailed
    | .released      => some .released
  | .ready         => if l = .ready then none else some .notInitialized

/-- The first check of R302 that fails, of steps 2 to 7; none if all pass. Step 1 is decoding. -/
def firstError (k : Checks) (s : State) : Option Status :=
  match releasedError k.life s.lifecycle with
  | some e => some e
  | none =>
    match familyError k.fam s.family with
    | some e => some e
    | none =>
      match lifecycleError k.life s.lifecycle with
      | some e => some e
      | none =>
        if k.reservedZero = false then some .badOperand
        else
          match k.operand with
          | some e => some e
          | none   => if k.lengthOk = false then some .badLength else none

/-- Runs a request: its body if every check passes, else the error, with no event and no state write but LAST_STATUS (R301, R302). -/
def request (k : Checks) (s : State) (body : State → Result) : Result :=
  match firstError k s with
  | some e => .next (raise e s)
  | none   => body s

/-- Runs READ_REG, whose errors do not write LAST_STATUS either (44_lifecycle.md R229). -/
def requestReadReg (k : Checks) (s : State) (body : State → Result) : Result :=
  match firstError k s with
  | some e => .next (respondReadReg e [] s)
  | none   => body s

/-- Runs a bare controller command of the opcode table (log entry 7): refused after TEARDOWN (R228: no Bus event is ever emitted again) and in
a block of the other family; an encoder error is raised (41_command_encoder.md R140); otherwise its events are emitted. It is not a
request: if it succeeds it gives no response and leaves LAST_STATUS. -/
def controllerCommand (fam : Family) (error : Option Status) (evs : List Event) (s : State) : Result :=
  if s.lifecycle = .released then .next (raise .released s)
  else if s.family ≠ fam then .next (raise .unsupportedOp s)
  else
    match error with
    | some e => .next (raise e s)
    | none   => traffic raiseTransport evs s fun t => .next t

-- the port (10_state.md R31)

/-- The next word of the port and the state with it taken; none while the port is empty. Every word taken advances the stream by one,
whatever its outcome (R31). -/
def fetch (s : State) : Option (PortWord × State) :=
  match s.port with
  | []        => none
  | w :: rest => some (w, { s with port := rest })

/-- A port word that is no instruction: an illegal OP answers ERR_ILLEGAL_OP and changes nothing but LAST_STATUS (30_encoding.md R103,
60_exceptions.md R303); a bare byte that is no product of the encoder has no meaning. -/
def undecoded (e : DecodeError) (s : State) : Result :=
  match e with
  | .illegalOp _            => .next (raise .illegalOp s)
  | .notHd44780Command _    => .refused .notEncoderProduct
  | .notInterfaceNibble _   => .refused .notEncoderProduct
  | .notOledCommand _       => .refused .notEncoderProduct

end Sys2Proof.Machine
end

