-- ==== Sys2Proof/Machine/Operands.lean ====
section
/-! DEFINITION. Operand checks and operand values: position validity and the DDRAM address of a position (45_high_level_ops.md R253,
10_state.md R41), the value checks of 30_encoding.md R104, and what a register number reads (10_state.md R45). -/

namespace Sys2Proof.Machine

/-- `validPos(x, y)`, unsigned (R253). -/
def validPos (s : State) (x y : Byte) : Bool := x < s.width && y < s.height

/-- The value check of SET_POS and WRITE_TEXT_AT_LINE (R104). -/
def positionError (s : State) (x y : Byte) : Option Status := if validPos s x y then none else some .badPosition

/-- The value check of SET_GLYPH and GET_GLYPH (R104). -/
def indexError (index : Byte) : Option Status := if 7 < index then some .badIndex else none

/-- The value check of INIT (R104, 44_lifecycle.md R220). -/
def variantError (q : Params) (code : Byte) : Option Status :=
  match supportedVariant q code with
  | some _ => none
  | none   => some .unsupportedConfig

/-- The value check of READ_REG (R104). -/
def registerError (reg : Byte) : Option Status := if validReg reg then none else some .badOperand

/-- `st.LINE_OFFSET[y]`; there are four (10_state.md R39). -/
def lineOffset (s : State) (y : Byte) : Option (BitVec 7) :=
  match y.toNat with
  | 0 => some s.lineOffset0
  | 1 => some s.lineOffset1
  | 2 => some s.lineOffset2
  | 3 => some s.lineOffset3
  | _ => none

/-- `ddramAddr(x, y) = st.LINE_OFFSET[y] + x`, a 7-bit sum (R41). -/
def ddramAddr (s : State) (x y : Byte) : Option (BitVec 7) := (lineOffset s y).map fun base => base + x.setWidth 7

/-- The value READ_REG answers for a register number (R45): none for a reserved number, and for a store offset the store does not list. -/
def regValue (s : State) (reg : Byte) : Option Byte :=
  match reg.toNat with
  | 0x00 => some (statusRegister s)
  | 0x01 => some (flagsRegister s)
  | 0x02 => some s.width
  | 0x03 => some s.height
  | 0x04 => some (s.lineOffset0.setWidth 8)
  | 0x05 => some (s.lineOffset1.setWidth 8)
  | 0x06 => some (s.lineOffset2.setWidth 8)
  | 0x07 => some (s.lineOffset3.setWidth 8)
  | 0x08 => some s.variant
  | 0x09 => some s.lastStatus
  | n    => if 0x40 ≤ n ∧ n ≤ 0x7F then s.store.read (n - 0x40) else none

end Sys2Proof.Machine
end

