-- ==== Sys2Proof/Machine/ControllerCommand.lean ====
section
/-! DEFINITION. The opcode table's bare controller commands (30_encoding.md R111, R113; 44_lifecycle.md R222): each is its encoding by the
CommandEncoder and its transfer by the protocol of its family (log entry 7). Don't-care bits are sent as 0. -/

namespace Sys2Proof.Machine

/-- An HD44780 command byte: the encoder's result, sent with RS = 0 (41_command_encoder.md R140, 42_nibble_strobe.md R171). -/
def hdCommand (r : EncResult) (s : State) : Result :=
  controllerCommand .char r.error? (sendHd s.params s.backlight r) s

/-- A graphic command byte (43_framed_byte.md R190). -/
def oledCommand (r : EncResult) (s : State) : Result :=
  controllerCommand .graphic r.error? (sendOled s.params r) s

/-- CMD_CLEAR: EncClear (41_command_encoder.md R141). -/
def execHdClear (s : State) : Result := hdCommand encClear s

/-- CMD_HOME: EncHome (R142); the don't-care bit is sent as 0. -/
def execHdHome (_x : Bool) (s : State) : Result := hdCommand encHome s

/-- CMD_ENTRY: EncEntryMode (R143). -/
def execHdEntryMode (inc shift : Bool) (s : State) : Result := hdCommand (encEntryMode inc shift) s

/-- CMD_DISPLAY_CONTROL: EncDisplayControl of its own three flag bits (R144). -/
def execHdDisplayControl (d c b : Bool) (s : State) : Result :=
  hdCommand (encDisplayControl ((bit3 d <<< 2) ||| (bit3 c <<< 1) ||| bit3 b)) s

/-- CMD_FUNCTION_SET, the controller byte: EncFunctionSet (R145); the don't-care bits are sent as 0. -/
def execHdFunctionSet (dl n f : Bool) (_x : BitVec 2) (s : State) : Result := hdCommand (encFunctionSet dl n f) s

/-- CMD_SET_CGRAM_ADDR: EncSetCGRAM of its six address bits (R146). -/
def execHdSetCgramAddr (a : BitVec 6) (s : State) : Result := hdCommand (encSetCgram (a.setWidth 8)) s

/-- CMD_SET_DDRAM_ADDR: EncSetDDRAM of its seven address bits (R147). -/
def execHdSetDdramAddr (a : BitVec 7) (s : State) : Result := hdCommand (encSetDdram (a.setWidth 8)) s

/-- NIB_IFACE_RESET: one NibbleXfer of 0x3 with rs = 0 (R222). -/
def execNibIfaceReset (s : State) : Result := controllerCommand .char none (ifaceReset s.params s.backlight) s

/-- NIB_IFACE_4BIT: one NibbleXfer of 0x2 with rs = 0 (R222). -/
def execNibIface4bit (s : State) : Result := controllerCommand .char none (iface4bit s.params s.backlight) s

/-- OLED_SET_CONTRAST: EncContrast, two command bytes (R148). -/
def execOledSetContrast (value : Byte) (s : State) : Result :=
  controllerCommand .graphic none
    (framedCmd s.params (encContrast value).1 ++ framedCmd s.params (encContrast value).2) s

/-- OLED_ALL_ON: EncAllOn (R148). -/
def execOledAllOn (b : Bool) (s : State) : Result := oledCommand (encAllOn b) s

/-- OLED_INVERSE: EncInverse (R148). -/
def execOledInverse (b : Bool) (s : State) : Result := oledCommand (encInverse b) s

/-- OLED_DISPLAY: EncDisplay (R148). -/
def execOledDisplay (b : Bool) (s : State) : Result := oledCommand (encDisplay b) s

end Sys2Proof.Machine
end

