-- ==== Sys2Proof/Machine/GraphicSettings.lean ====
section
/-! DEFINITION. The display-setting requests of the graphic family (43_framed_byte.md R197 to R200). -/

namespace Sys2Proof.Machine

/-- SET_CONTRAST (R197): exactly two framed command bytes. -/
def execSetContrast (value b c : Byte) (p : List Byte) (s : State) : Result :=
  request { fam := .only .graphic, life := .ready, reservedZero := b == 0 && c == 0, operand := none,
            lengthOk := p.length == 0 } s fun s =>
    sendAndRespond (framedCmd s.params (encContrast value).1 ++ framedCmd s.params (encContrast value).2) s

/-- SET_ALL_PIXELS_ON (R198). -/
def execSetAllPixelsOn (on : Bool) (resA : BitVec 7) (b c : Byte) (p : List Byte) (s : State) : Result :=
  request { fam := .only .graphic, life := .ready, reservedZero := resA == 0 && b == 0 && c == 0, operand := none,
            lengthOk := p.length == 0 } s fun s =>
    sendAndRespond (sendOled s.params (encAllOn on)) s

/-- SET_INVERSE (R199). -/
def execSetInverse (on : Bool) (resA : BitVec 7) (b c : Byte) (p : List Byte) (s : State) : Result :=
  request { fam := .only .graphic, life := .ready, reservedZero := resA == 0 && b == 0 && c == 0, operand := none,
            lengthOk := p.length == 0 } s fun s =>
    sendAndRespond (sendOled s.params (encInverse on)) s

/-- SET_DISPLAY_ON, graphic family (R200): the flag is written before the transaction. -/
def execSetDisplayOnGraphic (on : Bool) (resA : BitVec 7) (b c : Byte) (p : List Byte) (s : State) : Result :=
  request { fam := .only .graphic, life := .ready, reservedZero := resA == 0 && b == 0 && c == 0, operand := none,
            lengthOk := p.length == 0 } s fun s =>
    sendAndRespond (sendOled s.params (encDisplay on)) (s.setDisplay on)

end Sys2Proof.Machine
end

