-- ==== Sys2Proof/Machine/HighLevel.lean ====
section
/-! DEFINITION. The high-level character-family requests (45_high_level_ops.md). -/

namespace Sys2Proof.Machine

/-- CLEAR (R250). -/
def execClear (a b c : Byte) (p : List Byte) (s : State) : Result :=
  request { fam := .only .char, life := .ready, reservedZero := a == 0 && b == 0 && c == 0, operand := none,
            lengthOk := p.length == 0 } s fun s =>
    sendAndRespond (clearSeq s.params s.backlight) s

/-- HOME (R251). -/
def execHome (a b c : Byte) (p : List Byte) (s : State) : Result :=
  request { fam := .only .char, life := .ready, reservedZero := a == 0 && b == 0 && c == 0, operand := none,
            lengthOk := p.length == 0 } s fun s =>
    sendAndRespond (homeSeq s.params s.backlight) s

/-- SET_POS (R252, R253). -/
def execSetPos (x y c : Byte) (p : List Byte) (s : State) : Result :=
  request { fam := .only .char, life := .ready, reservedZero := c == 0, operand := positionError s x y,
            lengthOk := p.length == 0 } s fun s =>
    match ddramAddr s x y with
    | some a => sendAndRespond (sendHd s.params s.backlight (encSetDdram (a.setWidth 8))) s
    | none   => .fault .rowMissing

/-- WRITE_TEXT (R254). -/
def execWriteText (a b c : Byte) (p : List Byte) (s : State) : Result :=
  request { fam := .only .char, life := .ready, reservedZero := a == 0 && b == 0 && c == 0, operand := none,
            lengthOk := p.length ≤ s.params.maxPayload } s fun s =>
    sendAndRespond (dataXfers s.params s.backlight p) s

/-- WRITE_TEXT_AT_LINE (R255). -/
def execWriteTextAtLine (row b c : Byte) (p : List Byte) (s : State) : Result :=
  request { fam := .only .char, life := .ready, reservedZero := b == 0 && c == 0, operand := positionError s 0 row,
            lengthOk := p.length ≤ s.params.maxPayload } s fun s =>
    match ddramAddr s 0 row with
    | some a =>
      sendAndRespond (sendHd s.params s.backlight (encSetDdram (a.setWidth 8)) ++ dataXfers s.params s.backlight p) s
    | none   => .fault .rowMissing

/-- The display-control byte of the current flags, sent (R256, R257). -/
def sendDisplayControl (s : State) : Result :=
  sendAndRespond (sendHd s.params s.backlight (encDisplayControl (flagsByte s))) s

/-- SET_CURSOR_STYLE (R256). -/
def execSetCursorStyle (visible blinking : Bool) (resA : BitVec 6) (b c : Byte) (p : List Byte) (s : State) : Result :=
  request { fam := .only .char, life := .ready, reservedZero := resA == 0 && b == 0 && c == 0, operand := none,
            lengthOk := p.length == 0 } s fun s =>
    sendDisplayControl (s.setCursor visible blinking)

/-- SET_DISPLAY_ON, character family (R257). -/
def execSetDisplayOnChar (on : Bool) (resA : BitVec 7) (b c : Byte) (p : List Byte) (s : State) : Result :=
  request { fam := .only .char, life := .ready, reservedZero := resA == 0 && b == 0 && c == 0, operand := none,
            lengthOk := p.length == 0 } s fun s =>
    sendDisplayControl (s.setDisplay on)

/-- SET_BACKLIGHT (R259). -/
def execSetBacklight (on : Bool) (resA : BitVec 7) (b c : Byte) (p : List Byte) (s : State) : Result :=
  request { fam := .only .char, life := .ready, reservedZero := resA == 0 && b == 0 && c == 0, operand := none,
            lengthOk := p.length == 0 } s fun s =>
    sendAndRespond (backlightXfer s.params on) (s.setBacklight on)

/-- SET_GLYPH (R260): the store first, then the CGRAM address and eight data bytes (R264). -/
def execSetGlyph (index b c : Byte) (p : List Byte) (s : State) : Result :=
  request { fam := .only .char, life := .ready, reservedZero := b == 0 && c == 0, operand := indexError index,
            lengthOk := p.length == 8 } s fun s =>
    sendAndRespond (sendHd s.params s.backlight (encSetCgram (8 * index)) ++ dataXfers s.params s.backlight p)
      (s.setStore (s.store.writeN (8 * index.toNat) p))

/-- SET_ALL_GLYPHS (R261). -/
def execSetAllGlyphs (a b c : Byte) (p : List Byte) (s : State) : Result :=
  request { fam := .only .char, life := .ready, reservedZero := a == 0 && b == 0 && c == 0, operand := none,
            lengthOk := p.length == 64 } s fun s =>
    sendAndRespond (sendHd s.params s.backlight (encSetCgram 0) ++ dataXfers s.params s.backlight p)
      (s.setStore (s.store.writeN 0 p))

/-- Answers `n` bytes of the store (R262, R263). -/
def respondStore (a n : Nat) (s : State) : Result :=
  match s.store.readN a n with
  | some bytes => .next (respond .ok bytes s)
  | none       => .fault .storeHole

/-- GET_GLYPH (R262): the mirror's bytes, with no bus traffic (20_memory.md R86). -/
def execGetGlyph (index b c : Byte) (p : List Byte) (s : State) : Result :=
  request { fam := .only .char, life := .ready, reservedZero := b == 0 && c == 0, operand := indexError index,
            lengthOk := p.length == 0 } s fun s =>
    respondStore (8 * index.toNat) 8 s

/-- GET_ALL_GLYPHS (R263). -/
def execGetAllGlyphs (a b c : Byte) (p : List Byte) (s : State) : Result :=
  request { fam := .only .char, life := .ready, reservedZero := a == 0 && b == 0 && c == 0, operand := none,
            lengthOk := p.length == 0 } s fun s =>
    respondStore 0 64 s

end Sys2Proof.Machine
end

