-- ==== Sys2Proof/Machine/Lifecycle.lean ====
section
/-! DEFINITION. The lifecycle requests INIT, TEARDOWN and READ_REG (44_lifecycle.md). -/

namespace Sys2Proof.Machine

/-- `CharInit()` (R221): steps 1 to 5, READY, then the clear sequence. -/
def charInit (s : State) : Result :=
  traffic raiseTransportInit (charInitSeq s.params s.backlight (flagsByte s)) s fun t =>
    traffic raiseTransportInit (clearSeq t.params t.backlight) (t.setLifecycle .ready) fun u =>
      .next (respond .ok [] u)

/-- `GfxInit()` (R224). -/
def graphicInit (s : State) : Result :=
  traffic raiseTransportInit (graphicInitSeq s.params s.displayOn) s fun t =>
    .next (respond .ok [] (t.setLifecycle .ready))

/-- The state writes of INIT, before its first event (R220, 45_high_level_ops.md R264). -/
def initWrites (variant : Byte) (g : Geometry) (bl on : Bool) (s : State) : State :=
  (s.setGeometry variant g).setFlags on false false bl

/-- INIT (R220 to R226). -/
def execInit (variant : Byte) (bl on : Bool) (resB : BitVec 6) (c : Byte) (p : List Byte) (s : State) : Result :=
  request { fam := .both, life := .uninitialized, reservedZero := resB == 0 && c == 0,
            operand := variantError s.params variant, lengthOk := p.length == 0 } s fun s =>
    match supportedVariant s.params variant with
    | none   => .next (raise .unsupportedConfig s)
    | some g =>
      match s.family with
      | .char    => charInit (initWrites variant g bl on s)
      | .graphic => graphicInit (initWrites variant g bl on s)

/-- TEARDOWN (R227): releases once, in any lifecycle state; a second one emits nothing and answers OK. -/
def execTeardown (a b c : Byte) (p : List Byte) (s : State) : Result :=
  request { fam := .both, life := .any, reservedZero := a == 0 && b == 0 && c == 0, operand := none,
            lengthOk := p.length == 0 } s fun s =>
    if s.lifecycle = .released then .next (respond .ok [] s) else .next (respond .ok [] s.releaseHandle)

/-- READ_REG (R229). -/
def execReadReg (reg b c : Byte) (p : List Byte) (s : State) : Result :=
  requestReadReg { fam := .both, life := .any, reservedZero := b == 0 && c == 0, operand := registerError reg,
                   lengthOk := p.length == 0 } s fun s =>
    match regValue s reg with
    | some v => .next (respondReadReg .ok [v] s)
    | none   => .fault .storeHole

end Sys2Proof.Machine
end

