-- ==== Sys2Proof/Machine/RawByte.lean ====
section
/-! DEFINITION. The raw byte requests of both families (42_nibble_strobe.md R175, R176; 43_framed_byte.md R194 to R196). Raw bytes are not
filtered. -/

namespace Sys2Proof.Machine

/-- WRITE_COMMAND, character family (R175). -/
def execWriteCommandChar (byte b c : Byte) (p : List Byte) (s : State) : Result :=
  request { fam := .only .char, life := .ready, reservedZero := b == 0 && c == 0, operand := none,
            lengthOk := p.length == 0 } s fun s =>
    sendAndRespond (byteXfer s.params s.backlight byte false) s

/-- WRITE_COMMAND, graphic family (R194). -/
def execWriteCommandGraphic (byte b c : Byte) (p : List Byte) (s : State) : Result :=
  request { fam := .only .graphic, life := .ready, reservedZero := b == 0 && c == 0, operand := none,
            lengthOk := p.length == 0 } s fun s =>
    sendAndRespond (framedCmd s.params byte) s

/-- WRITE_DATA, character family (R176). -/
def execWriteDataChar (byte b c : Byte) (p : List Byte) (s : State) : Result :=
  request { fam := .only .char, life := .ready, reservedZero := b == 0 && c == 0, operand := none,
            lengthOk := p.length == 0 } s fun s =>
    sendAndRespond (byteXfer s.params s.backlight byte true) s

/-- WRITE_DATA, graphic family (R195). -/
def execWriteDataGraphic (byte b c : Byte) (p : List Byte) (s : State) : Result :=
  request { fam := .only .graphic, life := .ready, reservedZero := b == 0 && c == 0, operand := none,
            lengthOk := p.length == 0 } s fun s =>
    sendAndRespond (framedData1 s.params byte) s

/-- WRITE_DATA_STREAM (R196): two transactions even for one byte. -/
def execWriteDataStream (a b c : Byte) (p : List Byte) (s : State) : Result :=
  request { fam := .only .graphic, life := .ready, reservedZero := a == 0 && b == 0 && c == 0, operand := none,
            lengthOk := 1 ≤ p.length && p.length ≤ s.params.maxPayload } s fun s =>
    sendAndRespond (framedStream s.params p) s

end Sys2Proof.Machine
end

