-- ==== Sys2Proof/Machine/RawCommand.lean ====
section
/-! DEFINITION. The raw controller-command requests of the character family (41_command_encoder.md R149 to R152). The error of the encoder is
the value check of 30_encoding.md R104 (60_exceptions.md R302). -/

namespace Sys2Proof.Machine

/-- Sends one encoder result as a command byte behind the checks of its request. -/
def encoderRequest (r : EncResult) (reservedZero : Bool) (p : List Byte) (s : State) : Result :=
  request { fam := .only .char, life := .ready, reservedZero := reservedZero, operand := r.error?,
            lengthOk := p.length == 0 } s fun s =>
    sendAndRespond (sendHd s.params s.backlight r) s

/-- CMD_ENTRY_MODE (R149). -/
def execCmdEntryMode (inc shift : Bool) (resA : BitVec 6) (b c : Byte) (p : List Byte) (s : State) : Result :=
  encoderRequest (encEntryMode inc shift) (resA == 0 && b == 0 && c == 0) p s

/-- CMD_FUNCTION_SET (R150). -/
def execCmdFunctionSet (dl n f : Bool) (resA : BitVec 5) (b c : Byte) (p : List Byte) (s : State) : Result :=
  encoderRequest (encFunctionSet dl n f) (resA == 0 && b == 0 && c == 0) p s

/-- CMD_SET_CGRAM (R151). The store is not touched. -/
def execCmdSetCgram (offset b c : Byte) (p : List Byte) (s : State) : Result :=
  encoderRequest (encSetCgram offset) (b == 0 && c == 0) p s

/-- CMD_SET_DDRAM (R152). -/
def execCmdSetDdram (offset b c : Byte) (p : List Byte) (s : State) : Result :=
  encoderRequest (encSetDdram offset) (b == 0 && c == 0) p s

end Sys2Proof.Machine
end

