-- ==== Sys2Proof/Machine/Dispatch.lean ====
section
/-! DEFINITION. exec: one arm per instruction, each one call of its meaning. -/

namespace Sys2Proof.Machine

/-- What an instruction does. -/
def exec (i : Instr) (s : State) : Host.Outcome State Fault Refusal :=
  match i with
  | .init variant bl on resB c p => Sys2Proof.Machine.execInit variant bl on resB c p s
  | .teardown a b c p => Sys2Proof.Machine.execTeardown a b c p s
  | .readReg reg b c p => Sys2Proof.Machine.execReadReg reg b c p s
  | .clear a b c p => Sys2Proof.Machine.execClear a b c p s
  | .home a b c p => Sys2Proof.Machine.execHome a b c p s
  | .setPos x y c p => Sys2Proof.Machine.execSetPos x y c p s
  | .writeText a b c p => Sys2Proof.Machine.execWriteText a b c p s
  | .writeTextAtLine row b c p => Sys2Proof.Machine.execWriteTextAtLine row b c p s
  | .setCursorStyle visible blinking resA b c p => Sys2Proof.Machine.execSetCursorStyle visible blinking resA b c p s
  | .setDisplayOnChar on resA b c p => Sys2Proof.Machine.execSetDisplayOnChar on resA b c p s
  | .setDisplayOnGraphic on resA b c p => Sys2Proof.Machine.execSetDisplayOnGraphic on resA b c p s
  | .setBacklight on resA b c p => Sys2Proof.Machine.execSetBacklight on resA b c p s
  | .setGlyph index b c p => Sys2Proof.Machine.execSetGlyph index b c p s
  | .setAllGlyphs a b c p => Sys2Proof.Machine.execSetAllGlyphs a b c p s
  | .getGlyph index b c p => Sys2Proof.Machine.execGetGlyph index b c p s
  | .getAllGlyphs a b c p => Sys2Proof.Machine.execGetAllGlyphs a b c p s
  | .writeCommandChar byte b c p => Sys2Proof.Machine.execWriteCommandChar byte b c p s
  | .writeCommandGraphic byte b c p => Sys2Proof.Machine.execWriteCommandGraphic byte b c p s
  | .writeDataChar byte b c p => Sys2Proof.Machine.execWriteDataChar byte b c p s
  | .writeDataGraphic byte b c p => Sys2Proof.Machine.execWriteDataGraphic byte b c p s
  | .writeDataStream a b c p => Sys2Proof.Machine.execWriteDataStream a b c p s
  | .cmdEntryMode inc shift resA b c p => Sys2Proof.Machine.execCmdEntryMode inc shift resA b c p s
  | .cmdFunctionSet dl n f resA b c p => Sys2Proof.Machine.execCmdFunctionSet dl n f resA b c p s
  | .cmdSetCgram offset b c p => Sys2Proof.Machine.execCmdSetCgram offset b c p s
  | .cmdSetDdram offset b c p => Sys2Proof.Machine.execCmdSetDdram offset b c p s
  | .setContrast value b c p => Sys2Proof.Machine.execSetContrast value b c p s
  | .setAllPixelsOn on resA b c p => Sys2Proof.Machine.execSetAllPixelsOn on resA b c p s
  | .setInverse on resA b c p => Sys2Proof.Machine.execSetInverse on resA b c p s
  | .hdClear => Sys2Proof.Machine.execHdClear s
  | .hdHome x => Sys2Proof.Machine.execHdHome x s
  | .hdEntryMode inc shift => Sys2Proof.Machine.execHdEntryMode inc shift s
  | .hdDisplayControl d c b => Sys2Proof.Machine.execHdDisplayControl d c b s
  | .hdFunctionSet dl n f x => Sys2Proof.Machine.execHdFunctionSet dl n f x s
  | .hdSetCgramAddr a => Sys2Proof.Machine.execHdSetCgramAddr a s
  | .hdSetDdramAddr a => Sys2Proof.Machine.execHdSetDdramAddr a s
  | .nibIfaceReset => Sys2Proof.Machine.execNibIfaceReset s
  | .nibIface4bit => Sys2Proof.Machine.execNibIface4bit s
  | .oledSetContrast value => Sys2Proof.Machine.execOledSetContrast value s
  | .oledAllOn b => Sys2Proof.Machine.execOledAllOn b s
  | .oledInverse b => Sys2Proof.Machine.execOledInverse b s
  | .oledDisplay b => Sys2Proof.Machine.execOledDisplay b s

end Sys2Proof.Machine
end

