-- ==== Sys2Proof/Machine/Step.lean ====
section
/-! DEFINITION. One step of the block: it takes the next request from its port and runs it (10_state.md R31). -/

namespace Sys2Proof.Machine

/-- One step. An empty port leaves the block as it is: it never starts an activity on its own (60_exceptions.md R312; log entry 1). -/
def step (s : State) : Host.Outcome State Fault Refusal :=
  match fetch s with
  | none => .next s
  | some (w, t) =>
    match decode s.family w with
    | .ok i    => exec i t
    | .error e => undecoded e t

/-- The state in which the next step runs the instruction of an opcode-table row: its word stands at the head of the port, and the coming
transactions of one step are acknowledged. The longest traffic of a row with an empty payload is INIT's, 42 transactions
(70_reset_and_hazards.md R353; log entry 8). -/
def State.withFetchWord (s : State) (nbits w : Nat) : State :=
  { s with port := tableWord nbits w :: s.port,
           env  := { s.env with answers := List.replicate 42 .ok ++ s.env.answers } }

end Sys2Proof.Machine
end

