-- ==== Sys2Proof/WellFormed.lean ====
section
/-! DEFINITION. The static form of an instruction: what 30_encoding.md demands of a word and its payload whatever the state of the
block. An ill-formed request is still a request: the block answers it with an error status (60_exceptions.md R302). -/

namespace Sys2Proof

open Machine

/-- Whether a row of the opcode table is a request (format REQ); the other rows are bare controller commands. -/
def Instr.isRequest : Instr → Bool
  | .hdClear | .hdHome _ | .hdEntryMode _ _ | .hdDisplayControl _ _ _ | .hdFunctionSet _ _ _ _ | .hdSetCgramAddr _
  | .hdSetDdramAddr _ | .nibIfaceReset | .nibIface4bit | .oledSetContrast _ | .oledAllOn _ | .oledInverse _ | .oledDisplay _ => false
  | .init _ _ _ _ _ _ | .teardown _ _ _ _ | .readReg _ _ _ _ | .clear _ _ _ _ | .home _ _ _ _ | .setPos _ _ _ _
  | .writeText _ _ _ _ | .writeTextAtLine _ _ _ _ | .setCursorStyle _ _ _ _ _ _ | .setDisplayOnChar _ _ _ _ _
  | .setDisplayOnGraphic _ _ _ _ _ | .setBacklight _ _ _ _ _ | .setGlyph _ _ _ _ | .setAllGlyphs _ _ _ _ | .getGlyph _ _ _ _
  | .getAllGlyphs _ _ _ _ | .writeCommandChar _ _ _ _ | .writeCommandGraphic _ _ _ _ | .writeDataChar _ _ _ _
  | .writeDataGraphic _ _ _ _ | .writeDataStream _ _ _ _ | .cmdEntryMode _ _ _ _ _ _ | .cmdFunctionSet _ _ _ _ _ _ _
  | .cmdSetCgram _ _ _ _ | .cmdSetDdram _ _ _ _ | .setContrast _ _ _ _ | .setAllPixelsOn _ _ _ _ _ | .setInverse _ _ _ _ _ => true

/-- Whether an instruction is INIT. -/
def Instr.isInit : Instr → Bool
  | .init _ _ _ _ _ _ => true
  | _                  => false

/-- Whether an instruction is TEARDOWN. -/
def Instr.isTeardown : Instr → Bool
  | .teardown _ _ _ _ => true
  | _                 => false

/-- Whether an instruction is READ_REG. -/
def Instr.isReadReg : Instr → Bool
  | .readReg _ _ _ _ => true
  | _                => false

/-- The Fam column of the opcode map (30_encoding.md R102): the one family an instruction is defined for, none where it is both. A row that
exists once per family belongs to its family, a bare controller command to the family of its controller. -/
def Instr.onlyFamily : Instr → Option Family
  | .init _ _ _ _ _ _ | .teardown _ _ _ _ | .readReg _ _ _ _ => none
  | .setDisplayOnGraphic _ _ _ _ _ | .writeCommandGraphic _ _ _ _ | .writeDataGraphic _ _ _ _ | .writeDataStream _ _ _ _
  | .setContrast _ _ _ _ | .setAllPixelsOn _ _ _ _ _ | .setInverse _ _ _ _ _ | .oledSetContrast _ | .oledAllOn _ | .oledInverse _
  | .oledDisplay _ => some .graphic
  | .clear _ _ _ _ | .home _ _ _ _ | .setPos _ _ _ _ | .writeText _ _ _ _ | .writeTextAtLine _ _ _ _ | .setCursorStyle _ _ _ _ _ _
  | .setDisplayOnChar _ _ _ _ _ | .setBacklight _ _ _ _ _ | .setGlyph _ _ _ _ | .setAllGlyphs _ _ _ _ | .getGlyph _ _ _ _
  | .getAllGlyphs _ _ _ _ | .writeCommandChar _ _ _ _ | .writeDataChar _ _ _ _ | .cmdEntryMode _ _ _ _ _ _
  | .cmdFunctionSet _ _ _ _ _ _ _ | .cmdSetCgram _ _ _ _ | .cmdSetDdram _ _ _ _ | .hdClear | .hdHome _ | .hdEntryMode _ _
  | .hdDisplayControl _ _ _ | .hdFunctionSet _ _ _ _ | .hdSetCgramAddr _ | .hdSetDdramAddr _ | .nibIfaceReset
  | .nibIface4bit => some .char

/-- Every reserved bit is 0 (30_encoding.md R105); for a controller byte, every don't-care bit is 0, which is how the encoder sends
it (R111). -/
def Instr.reservedZero : Instr → Bool
  | .init _ _ _ resB c _                => resB == 0 && c == 0
  | .teardown a b c _                   => a == 0 && b == 0 && c == 0
  | .readReg _ b c _                    => b == 0 && c == 0
  | .clear a b c _                      => a == 0 && b == 0 && c == 0
  | .home a b c _                       => a == 0 && b == 0 && c == 0
  | .setPos _ _ c _                     => c == 0
  | .writeText a b c _                  => a == 0 && b == 0 && c == 0
  | .writeTextAtLine _ b c _            => b == 0 && c == 0
  | .setCursorStyle _ _ resA b c _      => resA == 0 && b == 0 && c == 0
  | .setDisplayOnChar _ resA b c _      => resA == 0 && b == 0 && c == 0
  | .setDisplayOnGraphic _ resA b c _   => resA == 0 && b == 0 && c == 0
  | .setBacklight _ resA b c _          => resA == 0 && b == 0 && c == 0
  | .setGlyph _ b c _                   => b == 0 && c == 0
  | .setAllGlyphs a b c _               => a == 0 && b == 0 && c == 0
  | .getGlyph _ b c _                   => b == 0 && c == 0
  | .getAllGlyphs a b c _               => a == 0 && b == 0 && c == 0
  | .writeCommandChar _ b c _           => b == 0 && c == 0
  | .writeCommandGraphic _ b c _        => b == 0 && c == 0
  | .writeDataChar _ b c _              => b == 0 && c == 0
  | .writeDataGraphic _ b c _           => b == 0 && c == 0
  | .writeDataStream a b c _            => a == 0 && b == 0 && c == 0
  | .cmdEntryMode _ _ resA b c _        => resA == 0 && b == 0 && c == 0
  | .cmdFunctionSet _ _ _ resA b c _    => resA == 0 && b == 0 && c == 0
  | .cmdSetCgram _ b c _                => b == 0 && c == 0
  | .cmdSetDdram _ b c _                => b == 0 && c == 0
  | .setContrast _ b c _                => b == 0 && c == 0
  | .setAllPixelsOn _ resA b c _        => resA == 0 && b == 0 && c == 0
  | .setInverse _ resA b c _            => resA == 0 && b == 0 && c == 0
  | .hdClear                            => true
  | .hdHome x                           => !x
  | .hdEntryMode _ _                    => true
  | .hdDisplayControl _ _ _             => true
  | .hdFunctionSet _ _ _ x              => x == 0
  | .hdSetCgramAddr _                   => true
  | .hdSetDdramAddr _                   => true
  | .nibIfaceReset                      => true
  | .nibIface4bit                       => true
  | .oledSetContrast _                  => true
  | .oledAllOn _                        => true
  | .oledInverse _                      => true
  | .oledDisplay _                      => true

/-- The operand values that are legal whatever the geometry (30_encoding.md R104). The positions of SET_POS and WRITE_TEXT_AT_LINE are
bounded by state and are checked when the request runs. -/
def Instr.operandsLegal (q : Params) : Instr → Bool
  | .init variant _ _ _ _ _             => (supportedVariant q variant).isSome
  | .readReg reg _ _ _                  => validReg reg
  | .setGlyph index _ _ _               => index ≤ 7
  | .getGlyph index _ _ _               => index ≤ 7
  | .cmdFunctionSet dl _ _ _ _ _ _      => !dl
  | .cmdSetCgram offset _ _ _           => offset ≤ 0x3F
  | .cmdSetDdram offset _ _ _           => offset ≤ 0x7F
  | .hdFunctionSet dl _ _ _             => !dl
  | .teardown _ _ _ _ | .clear _ _ _ _ | .home _ _ _ _ | .setPos _ _ _ _ | .writeText _ _ _ _ | .writeTextAtLine _ _ _ _
  | .setCursorStyle _ _ _ _ _ _ | .setDisplayOnChar _ _ _ _ _ | .setDisplayOnGraphic _ _ _ _ _ | .setBacklight _ _ _ _ _
  | .setAllGlyphs _ _ _ _ | .getAllGlyphs _ _ _ _ | .writeCommandChar _ _ _ _ | .writeCommandGraphic _ _ _ _
  | .writeDataChar _ _ _ _ | .writeDataGraphic _ _ _ _ | .writeDataStream _ _ _ _ | .cmdEntryMode _ _ _ _ _ _
  | .setContrast _ _ _ _ | .setAllPixelsOn _ _ _ _ _ | .setInverse _ _ _ _ _ | .hdClear | .hdHome _ | .hdEntryMode _ _
  | .hdDisplayControl _ _ _ | .hdSetCgramAddr _ | .hdSetDdramAddr _ | .nibIfaceReset | .nibIface4bit | .oledSetContrast _
  | .oledAllOn _ | .oledInverse _ | .oledDisplay _ => true

/-- LEN is in the opcode's range (30_encoding.md R102, 00_scope.md R13). A bare controller byte has no payload. -/
def Instr.lengthLegal (q : Params) : Instr → Bool
  | .writeText _ _ _ p                  => p.length ≤ q.maxPayload
  | .writeTextAtLine _ _ _ p            => p.length ≤ q.maxPayload
  | .setGlyph _ _ _ p                   => p.length == 8
  | .setAllGlyphs _ _ _ p               => p.length == 64
  | .writeDataStream _ _ _ p            => 1 ≤ p.length && p.length ≤ q.maxPayload
  | .init _ _ _ _ _ p                   => p.length == 0
  | .setCursorStyle _ _ _ _ _ p         => p.length == 0
  | .cmdEntryMode _ _ _ _ _ p           => p.length == 0
  | .cmdFunctionSet _ _ _ _ _ _ p       => p.length == 0
  | .setDisplayOnChar _ _ _ _ p | .setDisplayOnGraphic _ _ _ _ p | .setBacklight _ _ _ _ p | .setAllPixelsOn _ _ _ _ p
  | .setInverse _ _ _ _ p               => p.length == 0
  | .teardown _ _ _ p | .readReg _ _ _ p | .clear _ _ _ p | .home _ _ _ p | .setPos _ _ _ p | .getGlyph _ _ _ p
  | .getAllGlyphs _ _ _ p | .writeCommandChar _ _ _ p | .writeCommandGraphic _ _ _ p | .writeDataChar _ _ _ p
  | .writeDataGraphic _ _ _ p | .cmdSetCgram _ _ _ p | .cmdSetDdram _ _ _ p | .setContrast _ _ _ p => p.length == 0
  | .hdClear | .hdHome _ | .hdEntryMode _ _ | .hdDisplayControl _ _ _ | .hdFunctionSet _ _ _ _ | .hdSetCgramAddr _
  | .hdSetDdramAddr _ | .nibIfaceReset | .nibIface4bit | .oledSetContrast _ | .oledAllOn _ | .oledInverse _ | .oledDisplay _ => true

/-- A well-formed instruction of a block with parameters `q`. -/
def Instr.wellFormed (q : Params) (i : Instr) : Bool := i.reservedZero && i.operandsLegal q && i.lengthLegal q

end Sys2Proof
end

