-- ==== Sys2Proof/Safety.lean ====
section
/-! DEFINITION. What holds of every state a run reaches, in the terms the obligations use. -/

namespace Sys2Proof.Machine

/-- No variant is set: the reset values of the geometry (10_state.md R39). -/
structure GeometryUnset (s : State) : Prop where
  variant : s.variant = 0xFF
  width   : s.width = 0
  height  : s.height = 0
  row0    : s.lineOffset0 = 0
  row1    : s.lineOffset1 = 0
  row2    : s.lineOffset2 = 0
  row3    : s.lineOffset3 = 0

/-- The geometry is a row of the variant table that belongs to the block's family (R39, R40). -/
structure GeometryIs (s : State) (g : Geometry) : Prop where
  listed : supportedVariant s.params s.variant = some g
  width  : s.width = g.width
  height : s.height = g.height
  row0   : s.lineOffset0 = g.row0
  row1   : s.lineOffset1 = g.row1
  row2   : s.lineOffset2 = g.row2
  row3   : s.lineOffset3 = g.row3

/-- The flags are as at reset (R36). -/
structure FlagsClear (s : State) : Prop where
  display   : s.displayOn = false
  cursor    : s.cursorOn = false
  blink     : s.blinkOn = false
  backlight : s.backlight = false

/-- The invariant of the block's state. -/
structure BlockInv (s : State) : Prop where
  /-- the parameters are legal (00_scope.md R9 to R14) -/
  params   : s.params.wf
  /-- the store is in canonical form (20_memory.md R72) -/
  store    : s.store.wf
  /-- `HANDLE_HELD` equals `LIFECYCLE ≠ RELEASED` (10_state.md R48) -/
  handle   : s.handleHeld = true ↔ s.lifecycle ≠ .released
  /-- codes 0x0D to 0xFF are never produced (60_exceptions.md R300) -/
  status   : s.lastStatus.toNat ≤ 0x0C
  /-- the geometry is unset, or the variant table's (10_state.md R39, R40) -/
  geometry : GeometryUnset s ∨ ∃ g, GeometryIs s g
  /-- a session in which INIT was accepted has a geometry (44_lifecycle.md R220, R225) -/
  accepted : s.lifecycle = .ready ∨ s.lifecycle = .failed → ∃ g, GeometryIs s g
  /-- before INIT, geometry and flags are as at reset (10_state.md R36, R39) -/
  fresh    : s.lifecycle = .uninitialized → GeometryUnset s ∧ FlagsClear s
  /-- the cursor flags are the character family's (90_conflicts.md C11) -/
  graphic  : s.family = .graphic → s.cursorOn = false ∧ s.blinkOn = false
  /-- the transport handle is released exactly once, at the release of the session (44_lifecycle.md R227) -/
  released : releaseCount s.trace = if s.handleHeld then 0 else 1

/-- The durations a wait of a kind may name (00_scope.md R12, 44_lifecycle.md R221). -/
def waitDurations (q : Params) : WaitKind → List Nat
  | .powerOn => [q.tPowerOn]
  | .reset   => [q.tReset1, q.tReset2, q.tReset3]
  | .settle4 => [q.tSettle4]
  | .latch   => [q.tLatch]
  | .proc    => [q.tProc]
  | .clear   => [q.tClear]
  | .home    => [q.tHome]

/-- What every event of a block with parameters `q` is. A transaction goes to `P_BUS_ADDR` (00_scope.md R10) with one byte whose RW bit is 0
in the character family (R11, 20_memory.md R78), with at least one byte in the graphic family (R74). A wait belongs to the character family
(43_framed_byte.md R193) and names a duration of its kind (R12). -/
def eventOk (q : Params) (e : Event) : Prop :=
  match e with
  | .bus a bytes =>
    a = q.busAddr ∧
      match q.family with
      | .char    => ∃ b, bytes = [b] ∧ b &&& q.maskRw = 0
      | .graphic => bytes ≠ []
  | .wait k t => q.family = .char ∧ t ∈ waitDurations q k
  | .release  => True

/-- Every event of the session is one the block's family emits. -/
def TraceOk (s : State) : Prop := ∀ e ∈ s.trace, eventOk s.params e

/-- The lifecycle state in which an instruction's body may run (30_encoding.md R102, the Life column): UNINITIALIZED for INIT, any for TEARDOWN
and READ_REG, READY for every other request. A bare controller command needs only a session that is not released (log entry 7). -/
def lifeAdmits (i : Instr) (l : Lifecycle) : Bool :=
  if i.isInit then l == .uninitialized
  else if i.isTeardown || i.isReadReg then true
  else if i.isRequest then l == .ready
  else l != .released

/-- The family column of the opcode map admits the block's family (R102). -/
def familyAdmits (i : Instr) (f : Family) : Bool := i.onlyFamily == none || i.onlyFamily == some f

/-- The positions an instruction names lie on the display (45_high_level_ops.md R253): SET_POS names (x, y), WRITE_TEXT_AT_LINE (0, row). -/
def positionLegal (s : State) : Instr → Bool
  | .setPos x y _ _            => x.toNat < s.width.toNat && y.toNat < s.height.toNat
  | .writeTextAtLine row _ _ _ => 0 < s.width.toNat && row.toNat < s.height.toNat
  | _                          => true

/-- The status of an operand value that is not legal (30_encoding.md R104). -/
def operandStatus : Instr → Status
  | .init _ _ _ _ _ _              => .unsupportedConfig
  | .setPos _ _ _ _                => .badPosition
  | .writeTextAtLine _ _ _ _       => .badPosition
  | .setGlyph _ _ _ _              => .badIndex
  | .getGlyph _ _ _ _              => .badIndex
  | .cmdFunctionSet _ _ _ _ _ _ _  => .unsupportedConfig
  | _                              => .badOperand

/-- The checks of 60_exceptions.md R302, steps 2 to 7, each with the status it answers, in their order. Step 1 is decoding. -/
def orderedChecks (i : Instr) (s : State) : List (Bool × Status) :=
  [ (s.lifecycle != .released || i.isTeardown || i.isReadReg, .released),
    (familyAdmits i s.family, .unsupportedOp),
    (!(i.isInit && s.lifecycle == .ready), .alreadyInitialized),
    (!(i.isInit && s.lifecycle == .failed), .sessionFailed),
    (i.isInit || i.isTeardown || i.isReadReg || s.lifecycle == .ready, .notInitialized),
    (i.reservedZero, .badOperand),
    (i.operandsLegal s.params && positionLegal s i, operandStatus i),
    (i.lengthLegal s.params, .badLength) ]

/-- The status of the first check of R302 that fails; none if all pass. -/
def firstFailure (i : Instr) (s : State) : Option Status :=
  ((orderedChecks i s).find? fun c => !c.1).map Prod.snd

/-- The state after a request was answered with an error `e` by a check: nothing changes but LAST_STATUS and the response, and READ_REG leaves
LAST_STATUS too (60_exceptions.md R301, 44_lifecycle.md R229). -/
def rejected (i : Instr) (e : Status) (s : State) : State :=
  { s with lastStatus := if i.isReadReg then s.lastStatus else e.code,
           response := some { status := e, cause := none, data := [] } }

/-- The state after a request emitted `evs`, with `nBus` acknowledged transactions and `nWait` served waits, and answered OK with `data`: nothing
else changes (10_state.md R35). -/
def answered (s : State) (evs : List Event) (nBus nWait : Nat) (data : List Byte) : State :=
  { s with trace := s.trace ++ evs, env := s.env.after nBus nWait, lastStatus := 0x00,
           response := some { status := .ok, cause := none, data := data } }

/-- Nothing of the block changed but what every request may change: the trace, LAST_STATUS, BUS_DESYNC, the response, and the environment. -/
def OnlyOutputs (s t : State) : Prop :=
  t = { s with trace := t.trace, lastStatus := t.lastStatus, busDesync := t.busDesync, response := t.response, env := t.env }

/-- The events of steps 1 to 5 of the character-family power-on sequence, in order (44_lifecycle.md R221 to R223): 30 transactions and 25
waits. `on` is the initial display flag; cursor and blink are off. -/
def powerOnEvents (q : Params) (bl on : Bool) : List Event :=
  [.wait .powerOn q.tPowerOn]
  ++ nibbleXfer q bl 0x3 false ++ [.wait .reset q.tReset1]
  ++ nibbleXfer q bl 0x3 false ++ [.wait .reset q.tReset2]
  ++ nibbleXfer q bl 0x3 false ++ [.wait .reset q.tReset3]
  ++ nibbleXfer q bl 0x2 false
  ++ [.wait .settle4 q.tSettle4]
  ++ byteXfer q bl 0x28 false
  ++ byteXfer q bl (if on then 0x0C else 0x08) false
  ++ byteXfer q bl 0x06 false

/-- The events of the clear sequence, in order (45_high_level_ops.md R250): 12 transactions and 10 waits. -/
def clearEvents (q : Params) (bl : Bool) : List Event :=
  byteXfer q bl 0x01 false ++ [.wait .clear q.tClear] ++ byteXfer q bl 0x02 false ++ [.wait .home q.tHome]

/-- The events of the graphic-family initialization, in order (43_framed_byte.md R201). -/
def graphicInitEvents (q : Params) (on : Bool) : List Event :=
  q.gfxInitSeq.map (fun c => Event.bus q.busAddr [q.ctrlCmd, c]) ++ [.bus q.busAddr [q.ctrlCmd, if on then 0xAF else 0xAE]]

/-- The state INIT leaves when it accepts a variant with these dimensions and line offsets, before its events (44_lifecycle.md R220). -/
def initialized (s : State) (variant width height : Byte) (row0 row1 row2 row3 : BitVec 7) (bl on : Bool) : State :=
  { s with variant := variant, width := width, height := height, lineOffset0 := row0, lineOffset1 := row1, lineOffset2 := row2,
           lineOffset3 := row3, backlight := bl, displayOn := on, cursorOn := false, blinkOn := false }

/-- The trace sizes of a successful request: bus transactions, waits and releases (70_reset_and_hazards.md R353). -/
def traceSize (i : Instr) (s : State) : Nat × Nat × Nat :=
  match i with
  | .init _ _ _ _ _ _ =>
    match s.family with
    | .char    => (42, 35, 0)
    | .graphic => (s.params.gfxInitSeq.length + 1, 0, 0)
  | .teardown _ _ _ _ => (0, 0, if s.lifecycle = .released then 0 else 1)
  | .readReg _ _ _ _ | .getGlyph _ _ _ _ | .getAllGlyphs _ _ _ _ => (0, 0, 0)
  | .clear _ _ _ _ => (12, 10, 0)
  | .home _ _ _ _ => (6, 5, 0)
  | .setPos _ _ _ _ | .setCursorStyle _ _ _ _ _ _ | .setDisplayOnChar _ _ _ _ _ | .writeCommandChar _ _ _ _ | .writeDataChar _ _ _ _
  | .cmdEntryMode _ _ _ _ _ _ | .cmdFunctionSet _ _ _ _ _ _ _ | .cmdSetCgram _ _ _ _ | .cmdSetDdram _ _ _ _ => (6, 4, 0)
  | .writeText _ _ _ p => (6 * p.length, 4 * p.length, 0)
  | .writeTextAtLine _ _ _ p => (6 * (p.length + 1), 4 * (p.length + 1), 0)
  | .setBacklight _ _ _ _ _ => (1, 0, 0)
  | .setGlyph _ _ _ _ => (54, 36, 0)
  | .setAllGlyphs _ _ _ _ => (390, 260, 0)
  | .writeCommandGraphic _ _ _ _ | .writeDataGraphic _ _ _ _ | .setAllPixelsOn _ _ _ _ _ | .setInverse _ _ _ _ _
  | .setDisplayOnGraphic _ _ _ _ _ => (1, 0, 0)
  | .setContrast _ _ _ _ | .writeDataStream _ _ _ _ => (2, 0, 0)
  | .hdClear | .hdHome _ | .hdEntryMode _ _ | .hdDisplayControl _ _ _ | .hdFunctionSet _ _ _ _ | .hdSetCgramAddr _
  | .hdSetDdramAddr _ => (6, 4, 0)
  | .nibIfaceReset | .nibIface4bit => (3, 2, 0)
  | .oledSetContrast _ => (2, 0, 0)
  | .oledAllOn _ | .oledInverse _ | .oledDisplay _ => (1, 0, 0)

end Sys2Proof.Machine
end

