-- ==== Sys2Proof/Certificates/Slice0/Obligations.lean ====
section
/-! DEFINITION. The statements for the provers. Free values (the transport's answers, the store at reset, the OPEN parameters) are universally
quantified or opaque; no statement rests on one. A statement about a sending request assumes of the environment only that it acknowledges
the request's own transactions and serves its own waits. -/

open Sys2Proof Sys2Proof.Machine

-- ---------------------------------------------------------------- encoding

/-- Words written out from the opcode map (30_encoding.md R102) and from the byte tables (R111, R113, R222). -/
def Obligations.SpecWordsDecode : Prop :=
  decode .char (.req 0x01020300 []) = .ok (.init 0x02 true true 0 0x00 []) ∧
  decode .char (.req 0x030A0000 []) = .ok (.readReg 0x0A 0x00 0x00 []) ∧
  decode .char (.req 0x12000100 []) = .ok (.setPos 0x00 0x01 0x00 []) ∧
  decode .char (.req 0x15020000 []) = .ok (.setCursorStyle false true 0 0x00 0x00 []) ∧
  decode .char (.req 0x16010000 []) = .ok (.setDisplayOnChar true 0 0x00 0x00 []) ∧
  decode .graphic (.req 0x16010000 []) = .ok (.setDisplayOnGraphic true 0 0x00 0x00 []) ∧
  decode .char (.req 0x21480100 [0x55]) = .ok (.writeDataChar 0x48 0x01 0x00 [0x55]) ∧
  decode .char (.req 0x30020000 []) = .ok (.cmdEntryMode true false 0 0x00 0x00 []) ∧
  decode .char (.req 0x310C0000 []) = .ok (.cmdFunctionSet true false false 1 0x00 0x00 []) ∧
  decode .graphic (.req 0x40CF0000 []) = .ok (.setContrast 0xCF 0x00 0x00 []) ∧
  decode .char (.hdCmd 0x28) = .ok (.hdFunctionSet false true false 0) ∧
  decode .char (.hdCmd 0x0D) = .ok (.hdDisplayControl true false true) ∧
  decode .char (.hdNibble 0x3) = .ok .nibIfaceReset ∧
  decode .graphic (.oledCmd [0x81, 0xCF]) = .ok (.oledSetContrast 0xCF)

/-- Decoding the encoding of an instruction gives it back, with every operand and every reserved bit at every value, in a block whose
family decodes that row. -/
def Obligations.DecodeOfEncode : Prop :=
  ∀ (fam : Family) (i : Instr), i.decodesIn fam = true → decode fam (encode i) = .ok i

/-- Every port word that decodes has one meaning: encoding the decoded instruction gives the word back. -/
def Obligations.EncodeOfDecode : Prop :=
  ∀ (fam : Family) (w : PortWord) (i : Instr), decode fam w = .ok i → encode i = w ∧ i.decodesIn fam = true

/-- R103: the illegal OP values are exactly those listed; an illegal OP answers ERR_ILLEGAL_OP and changes no state except LAST_STATUS. -/
def Obligations.IllegalOpcodeAnswers : Prop :=
  ∀ (s : State) (w : BitVec 32) (p : List Byte) (rest : List PortWord), s.port = .req w p :: rest →
    let op := w.toNat / 2 ^ 24
    let illegal := op = 0x00 ∨ (0x04 ≤ op ∧ op ≤ 0x0F) ∨ (0x1C ≤ op ∧ op ≤ 0x1F) ∨ (0x23 ≤ op ∧ op ≤ 0x2F) ∨
      (0x34 ≤ op ∧ op ≤ 0x3F) ∨ 0x43 ≤ op
    (illegal →
      step s = .next { s with port := rest, lastStatus := 0x09,
                              response := some { status := .illegalOp, cause := none, data := [] } }) ∧
    (¬ illegal → ∃ i, decode s.family (.req w p) = .ok i)

-- ---------------------------------------------------------------- the step

/-- A step runs the instruction the head of the port decodes to, with that word taken from the port. -/
def Obligations.StepRunsDecodedInstruction : Prop :=
  ∀ (s : State) (w : PortWord) (rest : List PortWord) (i : Instr),
    s.port = w :: rest → decode s.family w = .ok i → step s = exec i { s with port := rest }

/-- R31: every request advances the stream by exactly one, whatever its outcome, and no instruction touches the stream. With an empty
port nothing happens (R312; log entry 1). -/
def Obligations.StreamAdvancesByOne : Prop :=
  ∀ (s t : State), step s = .next t → t.port = s.port.tail ∧ (s.port = [] → t = s)

/-- No instruction of the opcode table is refused, and no request is: a step is refused exactly when the head of the port is a bare
controller byte, nibble or byte list that is no row of the table (R111, R113, R153, R222). That these stand on the port, and the refusal,
are the model's choice (log entry 7). -/
def Obligations.OnlyUndecodableBytesAreRefused : Prop :=
  (∀ (i : Instr) (s : State) (r : Refusal), exec i s ≠ .refused r) ∧
  (∀ (s : State) (r : Refusal), step s = .refused r ↔
    r = .notEncoderProduct ∧ ∃ w rest, s.port = w :: rest ∧ (∀ v p, w ≠ .req v p) ∧ ∀ i, decode s.family w ≠ .ok i) ∧
  (∀ (fam : Family) (v : Byte), (∀ i, decode fam (.hdCmd v) ≠ .ok i) ↔ v = 0x00 ∨ (0x10 ≤ v.toNat ∧ v.toNat ≤ 0x1F)) ∧
  (∀ (fam : Family) (n : BitVec 4), (∀ i, decode fam (.hdNibble n) ≠ .ok i) ↔ n ≠ 0x2 ∧ n ≠ 0x3) ∧
  (∀ (fam : Family) (bs : List Byte), (∀ i, decode fam (.oledCmd bs) ≠ .ok i) ↔
    (∀ v, bs ≠ [0x81, v]) ∧ bs ∉ [[(0xA4 : Byte)], [0xA5], [0xA6], [0xA7], [0xAE], [0xAF]])

/-- R340, R9 to R14: the parameters, and with them the family, are fixed for the block's lifetime. -/
def Obligations.ParametersAreFixed : Prop :=
  ∀ (s t : State), step s = .next t → t.params = s.params

-- ---------------------------------------------------------------- reset and invariants

/-- What reset leaves, for every build (70_reset_and_hazards.md R340, with the values of 10_state.md R32, R33, R35, R36, R39, R48). The
store is unspecified (R43). -/
def Obligations.ResetLeavesTheStatedValues : Prop :=
  ∀ q : Params, let s := State.resetWith q
    s.params = q ∧ s.lifecycle = .uninitialized ∧ s.busDesync = false ∧ s.lastStatus = 0x00 ∧
    s.displayOn = false ∧ s.cursorOn = false ∧ s.blinkOn = false ∧ s.backlight = false ∧
    s.variant = 0xFF ∧ s.width = 0 ∧ s.height = 0 ∧
    s.lineOffset0 = 0 ∧ s.lineOffset1 = 0 ∧ s.lineOffset2 = 0 ∧ s.lineOffset3 = 0 ∧
    s.handleHeld = true ∧ State.reset = State.resetWith Config.params

/-- The block right after reset meets the invariants, for every legal build; the parameters State.reset takes are legal. That the trace is
empty at reset, on which the release count of BlockInv and the whole of TraceOk rest, is the model's choice (log entry 2). -/
def Obligations.ResetMeetsTheInvariants : Prop :=
  Config.params.wf ∧ ∀ q : Params, q.wf → BlockInv (State.resetWith q) ∧ TraceOk (State.resetWith q)

/-- Every step keeps the state invariant. -/
def Obligations.StepKeepsInv : Prop :=
  ∀ (s t : State), BlockInv s → step s = .next t → BlockInv t

/-- Every step keeps the shape of the trace: transactions to P_BUS_ADDR, one byte with RW 0 in the character family, no wait in the graphic
family, every wait for its named duration. -/
def Obligations.StepKeepsTraceOk : Prop :=
  ∀ (s t : State), s.params.wf → TraceOk s → step s = .next t → TraceOk t

/-- R316: the lifecycle changes only from UNINITIALIZED to READY or FAILED, by INIT, or to RELEASED, by TEARDOWN. -/
def Obligations.LifecycleChangesOnlyAsStated : Prop :=
  ∀ (i : Instr) (s t : State), exec i s = .next t → t.lifecycle ≠ s.lifecycle →
    (i.isInit = true ∧ s.lifecycle = .uninitialized ∧
      (t.lifecycle = .ready ∨ (t.lifecycle = .failed ∧ t.lastStatus = 0x08))) ∨
    (i.isTeardown = true ∧ s.lifecycle ≠ .released ∧ t.lifecycle = .released)

/-- R33: BUS_DESYNC is never cleared, and an instruction that sets it answered ERR_TRANSPORT. -/
def Obligations.DesyncIsSticky : Prop :=
  ∀ (i : Instr) (s t : State), exec i s = .next t →
    (s.busDesync = true → t.busDesync = true) ∧
    (t.busDesync = true → s.busDesync = true ∨
      (t.lastStatus = 0x08 ∧ ∃ c, t.response = some { status := .transport, cause := some c, data := [] }))

/-- R36: each display flag is written only by the requests that name it, and all four are false at reset. -/
def Obligations.FlagsWrittenOnlyByTheirRequests : Prop :=
  (∀ (i : Instr) (s t : State), exec i s = .next t → i.isInit = false →
    (t.displayOn ≠ s.displayOn →
      ∃ on r b c p, i = .setDisplayOnChar on r b c p ∨ i = .setDisplayOnGraphic on r b c p) ∧
    (t.cursorOn ≠ s.cursorOn ∨ t.blinkOn ≠ s.blinkOn → ∃ v k r b c p, i = .setCursorStyle v k r b c p) ∧
    (t.backlight ≠ s.backlight → ∃ on r b c p, i = .setBacklight on r b c p)) ∧
  (∀ q : Params, let s := State.resetWith q
    s.displayOn = false ∧ s.cursorOn = false ∧ s.blinkOn = false ∧ s.backlight = false)

/-- R39, R42, R43: the geometry is written by INIT only, and the store by SET_GLYPH and SET_ALL_GLYPHS only; INIT does not write it. -/
def Obligations.GeometryAndStoreWriters : Prop :=
  ∀ (i : Instr) (s t : State), exec i s = .next t →
    (i.isInit = false → t.variant = s.variant ∧ t.width = s.width ∧ t.height = s.height ∧ t.lineOffset0 = s.lineOffset0 ∧
      t.lineOffset1 = s.lineOffset1 ∧ t.lineOffset2 = s.lineOffset2 ∧ t.lineOffset3 = s.lineOffset3) ∧
    ((∀ k b c p, i ≠ .setGlyph k b c p) → (∀ a b c p, i ≠ .setAllGlyphs a b c p) → t.store = s.store)

-- ---------------------------------------------------------------- statuses, responses and the order of checks

/-- R301: a request that answers a status other than OK and ERR_TRANSPORT, be its OP legal or not, emits no event and writes no state other
than LAST_STATUS; it is taken from the port. -/
def Obligations.PreconditionErrorsArePrecise : Prop :=
  ∀ (s t : State) (w : BitVec 32) (p : List Byte) (rest : List PortWord) (r : Response),
    s.port = .req w p :: rest → step s = .next t → t.response = some r → r.status ≠ .ok → r.status ≠ .transport →
    t = { s with port := rest, lastStatus := t.lastStatus, response := t.response }

/-- R35: LAST_STATUS holds the status of the most recent completed request other than READ_REG (OP 0x03), which does not write it; it is OK
at reset. The codes of the statuses are those of R300. -/
def Obligations.LastStatusRecordsTheResponse : Prop :=
  (∀ (s t : State) (w : BitVec 32) (p : List Byte) (rest : List PortWord), s.port = .req w p :: rest → step s = .next t →
    ∃ r, t.response = some r ∧ t.lastStatus = if w.toNat / 2 ^ 24 = 0x03 then s.lastStatus else Status.code r.status) ∧
  (∀ q : Params, (State.resetWith q).lastStatus = 0x00) ∧
  [Status.ok, .notInitialized, .alreadyInitialized, .badIndex, .badLength, .badPosition, .badOperand, .unsupportedConfig, .transport,
   .illegalOp, .unsupportedOp, .sessionFailed, .released].map Status.code =
    [0x00, 0x01, 0x02, 0x03, 0x04, 0x05, 0x06, 0x07, 0x08, 0x09, 0x0A, 0x0B, 0x0C]

/-- R106: the cause is present only with ERR_TRANSPORT; data is 1 byte for READ_REG (OP 0x03), 8 for GET_GLYPH (0x1A) and 64 for
GET_ALL_GLYPHS (0x1B), and empty for every other request and for every error. -/
def Obligations.ResponseShape : Prop :=
  ∀ (s t : State) (w : BitVec 32) (p : List Byte) (rest : List PortWord), s.port = .req w p :: rest → step s = .next t →
    ∃ r, t.response = some r ∧ (r.cause ≠ none ↔ r.status = .transport) ∧
      (r.status ≠ .ok → r.data = []) ∧
      (r.status = .ok → r.data.length =
        if w.toNat / 2 ^ 24 = 0x03 then 1
        else if w.toNat / 2 ^ 24 = 0x1A then 8
        else if w.toNat / 2 ^ 24 = 0x1B then 64
        else 0)

/-- R228, R304: after TEARDOWN every request other than TEARDOWN and READ_REG answers ERR_RELEASED and changes nothing but LAST_STATUS, and no
step emits an event again. That a bare controller command is answered so too is the model's choice (log entry 7). -/
def Obligations.AfterTeardownOnlyErrReleased : Prop :=
  (∀ (i : Instr) (s : State), s.lifecycle = .released → i.isTeardown = false → i.isReadReg = false →
    exec i s = .next { s with lastStatus := 0x0C, response := some { status := .released, cause := none, data := [] } }) ∧
  (∀ (s t : State), s.lifecycle = .released → step s = .next t → t.trace = s.trace ∧ t.lifecycle = .released)

/-- R305, R205: a legal OP of the other family answers ERR_UNSUPPORTED_OP. The first list is R305's, the second R205's. -/
def Obligations.OtherFamilyIsRefused : Prop :=
  ∀ (s : State) (a b c : Byte) (p : List Byte) (x y z : Bool) (r5 : BitVec 5) (r6 : BitVec 6) (r7 : BitVec 7),
    s.lifecycle ≠ .released →
    (s.family = .char →
      ∀ i ∈ [Instr.writeDataStream a b c p, .setContrast a b c p, .setAllPixelsOn x r7 b c p, .setInverse x r7 b c p],
        exec i s = .next { s with lastStatus := 0x0A,
                                  response := some { status := .unsupportedOp, cause := none, data := [] } }) ∧
    (s.family = .graphic →
      ∀ i ∈ [Instr.clear a b c p, .home a b c p, .setPos a b c p, .writeText a b c p, .writeTextAtLine a b c p,
             .setCursorStyle x y r6 b c p, .setBacklight x r7 b c p, .setGlyph a b c p, .setAllGlyphs a b c p, .getGlyph a b c p,
             .getAllGlyphs a b c p, .cmdEntryMode x y r6 b c p, .cmdFunctionSet x y z r5 b c p, .cmdSetCgram a b c p,
             .cmdSetDdram a b c p],
        exec i s = .next { s with lastStatus := 0x0A,
                                  response := some { status := .unsupportedOp, cause := none, data := [] } })

/-- R306: in UNINITIALIZED and in FAILED every request of the block's family except INIT, TEARDOWN and READ_REG answers
ERR_NOT_INITIALIZED. -/
def Obligations.NotInitializedIsAnswered : Prop :=
  ∀ (i : Instr) (s : State), i.isRequest = true → i.onlyFamily = some s.family →
    s.lifecycle = .uninitialized ∨ s.lifecycle = .failed →
    exec i s = .next { s with lastStatus := 0x01, response := some { status := .notInitialized, cause := none, data := [] } }

/-- R226: INIT outside UNINITIALIZED, with whatever operands: one error for each lifecycle state, no state change except LAST_STATUS and no
bus traffic. -/
def Obligations.InitLifecycleErrors : Prop :=
  ∀ (s : State) (v c : Byte) (bl on : Bool) (r : BitVec 6) (p : List Byte),
    (s.lifecycle = .ready → exec (.init v bl on r c p) s =
      .next { s with lastStatus := 0x02, response := some { status := .alreadyInitialized, cause := none, data := [] } }) ∧
    (s.lifecycle = .failed → exec (.init v bl on r c p) s =
      .next { s with lastStatus := 0x0B, response := some { status := .sessionFailed, cause := none, data := [] } }) ∧
    (s.lifecycle = .released → exec (.init v bl on r c p) s =
      .next { s with lastStatus := 0x0C, response := some { status := .released, cause := none, data := [] } })

/-- R302: an OP that is not in the opcode map is answered first; then a request answers the first check that fails, in the order of R302;
when none fails its body runs, and the status is then OK or ERR_TRANSPORT. The position check of WRITE_TEXT_AT_LINE is that of R255
(log entry 17). -/
def Obligations.ChecksRunInOrder : Prop :=
  (∀ (s : State) (w : BitVec 32) (p : List Byte) (rest : List PortWord), s.port = .req w p :: rest →
    (∀ i, decode s.family (.req w p) ≠ .ok i) →
    step s = .next { s with port := rest, lastStatus := 0x09,
                            response := some { status := .illegalOp, cause := none, data := [] } }) ∧
  ∀ (i : Instr) (s : State), i.isRequest = true →
    (∀ e, firstFailure i s = some e → exec i s = .next (rejected i e s)) ∧
    (firstFailure i s = none → ∀ t, exec i s = .next t →
      ∃ r, t.response = some r ∧ (r.status = .ok ∨ r.status = .transport))

/-- R104, with the codes of R300: the operand values that are not legal, request by request, when the earlier checks pass; whatever the
payload. The variants are those of R40. WRITE_TEXT_AT_LINE names the position (0, row), so it is also rejected at WIDTH 0, as R255 says and
the table of R104 does not (log entry 17). -/
def Obligations.OperandValueErrors : Prop :=
  ∀ (s : State) (a b : Byte) (x y : Bool) (p : List Byte),
    let answers := fun (i : Instr) (code : Byte) (e : Status) =>
      exec i s = .next { s with lastStatus := code, response := some { status := e, cause := none, data := [] } }
    (s.lifecycle = .uninitialized →
      (s.family = .char → a ≠ 0x00 → a ≠ 0x01 → a ≠ 0x02 → answers (.init a x y 0 0 p) 0x07 .unsupportedConfig) ∧
      (s.family = .graphic → a ≠ 0x80 → answers (.init a x y 0 0 p) 0x07 .unsupportedConfig)) ∧
    (¬ (a.toNat ≤ 0x09 ∨ (0x40 ≤ a.toNat ∧ a.toNat ≤ 0x7F)) →
      answers (.readReg a 0 0 p) s.lastStatus .badOperand) ∧
    (s.family = .char → s.lifecycle = .ready →
      (¬ (a.toNat < s.width.toNat ∧ b.toNat < s.height.toNat) → answers (.setPos a b 0 p) 0x05 .badPosition) ∧
      (¬ (0 < s.width.toNat ∧ a.toNat < s.height.toNat) → answers (.writeTextAtLine a 0 0 p) 0x05 .badPosition) ∧
      (7 < a.toNat → answers (.setGlyph a 0 0 p) 0x03 .badIndex) ∧
      (7 < a.toNat → answers (.getGlyph a 0 0 p) 0x03 .badIndex) ∧
      answers (.cmdFunctionSet true x y 0 0 0 p) 0x07 .unsupportedConfig ∧
      (0x3F < a.toNat → answers (.cmdSetCgram a 0 0 p) 0x06 .badOperand) ∧
      (0x7F < a.toNat → answers (.cmdSetDdram a 0 0 p) 0x06 .badOperand))

-- ---------------------------------------------------------------- the transfer protocols and the encoder

/-- R170: a nibble transfer is three transactions and two waits, with data in bits [7:4], RS at bit 0 and the backlight bit; a transaction
that fails is its last event. -/
def Obligations.NibbleTransfer : Prop :=
  ∀ (q : Params) (bl rs : Bool) (n : BitVec 4), q.masksWf →
    ∃ f : Byte, f.toNat = 16 * n.toNat + rs.toNat + (if bl then q.maskBl.toNat else 0) ∧
      (f ||| q.maskEn).toNat = f.toNat + q.maskEn.toNat ∧
      nibbleXfer q bl n rs =
        [.bus q.busAddr [f], .bus q.busAddr [f ||| q.maskEn], .wait .latch q.tLatch, .bus q.busAddr [f], .wait .proc q.tProc] ∧
      ∀ (s : State) (k : Nat) (c : Cause), s.env.acksBus k → s.env.answer k = .fail c → s.env.servesWaits 1 →
        (k = 0 → ∃ t, emit (nibbleXfer q bl n rs) s = .failed c t ∧ t.trace = s.trace ++ [.bus q.busAddr [f]]) ∧
        (k = 1 → ∃ t, emit (nibbleXfer q bl n rs) s = .failed c t ∧
          t.trace = s.trace ++ [.bus q.busAddr [f], .bus q.busAddr [f ||| q.maskEn]]) ∧
        (k = 2 → ∃ t, emit (nibbleXfer q bl n rs) s = .failed c t ∧
          t.trace = s.trace ++ [.bus q.busAddr [f], .bus q.busAddr [f ||| q.maskEn], .wait .latch q.tLatch, .bus q.busAddr [f]])

/-- R171: a byte is two nibbles, high first: six transactions and four waits, with frame1 = (v & 0xF0) | rs | bl and
frame2 = ((v << 4) & 0xF0) | rs | bl. -/
def Obligations.ByteTransferFrames : Prop :=
  ∀ (q : Params) (bl rs : Bool) (v : Byte),
    let low : Byte := (if rs then 0x01 else 0x00) ||| (if bl then q.maskBl else 0x00)
    let f1 : Byte := (v &&& 0xF0) ||| low
    let f2 : Byte := ((v <<< 4) &&& 0xF0) ||| low
    byteXfer q bl v rs =
      [.bus q.busAddr [f1], .bus q.busAddr [f1 ||| q.maskEn], .wait .latch q.tLatch, .bus q.busAddr [f1], .wait .proc q.tProc,
       .bus q.busAddr [f2], .bus q.busAddr [f2 ||| q.maskEn], .wait .latch q.tLatch, .bus q.busAddr [f2], .wait .proc q.tProc]

/-- R172: the two latch-low frames of a byte reconstruct it, and carry the same low bits. -/
def Obligations.FramesReconstructTheByte : Prop :=
  ∀ (q : Params) (bl rs : Bool) (v : Byte), q.masksWf →
    ∃ f1 f2 : Byte, (byteXfer q bl v rs)[0]? = some (.bus q.busAddr [f1]) ∧ (byteXfer q bl v rs)[5]? = some (.bus q.busAddr [f2]) ∧
      (f1 &&& 0xF0) ||| ((f2 &&& 0xF0) >>> 4) = v ∧ f1 &&& 0x0F = f2 &&& 0x0F

/-- R173: within a byte transfer every frame carries the same RS and BL bits, and within an instruction every single-byte transaction carries
the same BL bit, that of BACKLIGHT when it ends. -/
def Obligations.NoGlitchOnRsOrBacklight : Prop :=
  (∀ (q : Params) (bl rs : Bool) (v : Byte) (a : BitVec 7) (f : Byte), q.masksWf → .bus a [f] ∈ byteXfer q bl v rs →
    f &&& 0x01 = (if rs then 0x01 else 0x00) ∧ f &&& q.maskBl = (if bl then q.maskBl else 0x00)) ∧
  (∀ (i : Instr) (s t : State), s.params.masksWf → s.family = .char → exec i s = .next t →
    ∃ evs, t.trace = s.trace ++ evs ∧
      ∀ a f, .bus a [f] ∈ evs → f &&& s.params.maskBl = if t.backlight then s.params.maskBl else 0x00)

/-- R141 to R148: the encoder functions. -/
def Obligations.EncoderFunctions : Prop :=
  encClear = .ok 0x01 ∧ encHome = .ok 0x02 ∧
  (∀ inc shift : Bool, encEntryMode inc shift = .ok (BitVec.ofNat 8 (0x04 + 2 * inc.toNat + shift.toNat))) ∧
  (∀ flags : BitVec 3, encDisplayControl flags = .ok (BitVec.ofNat 8 (0x08 + flags.toNat))) ∧
  (∀ n f : Bool, encFunctionSet true n f = .err .unsupportedConfig ∧
    encFunctionSet false n f = .ok (BitVec.ofNat 8 (0x20 + 8 * n.toNat + 4 * f.toNat))) ∧
  (∀ off : Byte, (0x3F < off.toNat → encSetCgram off = .err .badOperand) ∧
    (off.toNat ≤ 0x3F → encSetCgram off = .ok (BitVec.ofNat 8 (0x40 + off.toNat)))) ∧
  (∀ off : Byte, (0x7F < off.toNat → encSetDdram off = .err .badOperand) ∧
    (off.toNat ≤ 0x7F → encSetDdram off = .ok (BitVec.ofNat 8 (0x80 + off.toNat)))) ∧
  (∀ v : Byte, encContrast v = (0x81, v)) ∧
  (∀ b : Bool, encAllOn b = .ok (if b then 0xA5 else 0xA4) ∧ encInverse b = .ok (if b then 0xA7 else 0xA6) ∧
    encDisplay b = .ok (if b then 0xAF else 0xAE))

/-- R37: the DisplayFlags byte is D, C and B at bits 2, 1 and 0. -/
def Obligations.FlagsByteOfTheFlags : Prop :=
  ∀ s : State, (flagsByte s).toNat = 4 * s.displayOn.toNat + 2 * s.cursorOn.toNat + s.blinkOn.toNat

-- ---------------------------------------------------------------- lifecycle requests

/-- R220, R221, R223: INIT of a character-family block with one of its three variants completes: the geometry of R40, the flags, the power-on
sequence and the clear sequence in order, READY. -/
def Obligations.InitCharCompletes : Prop :=
  ∀ (s : State) (bl on : Bool) (v w h : Byte) (r0 r1 r2 r3 : BitVec 7),
    (v, w, h, r0, r1, r2, r3) ∈ [((0x00 : Byte), (16 : Byte), (2 : Byte), (0x00 : BitVec 7), (0x40 : BitVec 7), (0x00 : BitVec 7), (0x00 : BitVec 7)),
                                 (0x01, 40, 2, 0x00, 0x40, 0x00, 0x00), (0x02, 20, 4, 0x00, 0x40, 0x14, 0x54)] →
    s.family = .char → s.lifecycle = .uninitialized → s.env.acksBus 42 → s.env.servesWaits 35 →
    exec (.init v bl on 0 0 []) s =
      .next { answered (initialized s v w h r0 r1 r2 r3 bl on) (powerOnEvents s.params bl on ++ clearEvents s.params bl) 42 35 []
              with lifecycle := .ready }

/-- R220, R224, R201: INIT of a graphic-family block completes: the init sequence, then the display command, and no wait. -/
def Obligations.InitGraphicCompletes : Prop :=
  ∀ (s : State) (bl on : Bool), s.family = .graphic → s.lifecycle = .uninitialized →
    s.env.acksBus (s.params.gfxInitSeq.length + 1) →
    exec (.init 0x80 bl on 0 0 []) s =
      .next { answered (initialized s 0x80 s.params.gfxWidth s.params.gfxHeight 0 0 0 0 bl on) (graphicInitEvents s.params on)
                (s.params.gfxInitSeq.length + 1) 0 []
              with lifecycle := .ready }

/-- R225: a transaction of INIT that fails before READY leaves the session FAILED; one that fails in the clear sequence leaves it READY. In
both cases geometry and flags stay written, BUS_DESYNC is set and the answer is ERR_TRANSPORT. -/
def Obligations.InitFailure : Prop :=
  (∀ (s : State) (bl on : Bool) (k : Nat) (c : Cause) (v w h : Byte) (r0 r1 r2 r3 : BitVec 7),
    (v, w, h, r0, r1, r2, r3) ∈ [((0x00 : Byte), (16 : Byte), (2 : Byte), (0x00 : BitVec 7), (0x40 : BitVec 7), (0x00 : BitVec 7), (0x00 : BitVec 7)),
                                 (0x01, 40, 2, 0x00, 0x40, 0x00, 0x00), (0x02, 20, 4, 0x00, 0x40, 0x14, 0x54)] →
    s.family = .char → s.lifecycle = .uninitialized → k < 42 → s.env.acksBus k → s.env.answer k = .fail c → s.env.servesWaits 35 →
    ∃ t, exec (.init v bl on 0 0 []) s = .next t ∧
      t = { initialized s v w h r0 r1 r2 r3 bl on with
              lifecycle := if k < 30 then .failed else .ready, busDesync := true, lastStatus := 0x08,
              response := some { status := .transport, cause := some c, data := [] }, env := t.env,
              trace := s.trace ++ cutAfterBus k (powerOnEvents s.params bl on ++ clearEvents s.params bl) }) ∧
  (∀ (s : State) (bl on : Bool) (k : Nat) (c : Cause),
    s.family = .graphic → s.lifecycle = .uninitialized → k < s.params.gfxInitSeq.length + 1 → s.env.acksBus k →
    s.env.answer k = .fail c →
    ∃ t, exec (.init 0x80 bl on 0 0 []) s = .next t ∧
      t = { initialized s 0x80 s.params.gfxWidth s.params.gfxHeight 0 0 0 0 bl on with
              lifecycle := .failed, busDesync := true, lastStatus := 0x08,
              response := some { status := .transport, cause := some c, data := [] }, env := t.env,
              trace := s.trace ++ cutAfterBus k (graphicInitEvents s.params on) })

/-- R227: TEARDOWN completes in every lifecycle state and releases exactly once. -/
def Obligations.TeardownReleasesOnce : Prop :=
  ∀ s : State,
    (s.lifecycle ≠ .released →
      exec (.teardown 0 0 0 []) s =
        .next { s with trace := s.trace ++ [.release], handleHeld := false, lifecycle := .released, lastStatus := 0x00,
                       response := some { status := .ok, cause := none, data := [] } }) ∧
    (s.lifecycle = .released →
      exec (.teardown 0 0 0 []) s =
        .next { s with lastStatus := 0x00, response := some { status := .ok, cause := none, data := [] } }) ∧
    (∀ (a b c : Byte) (p : List Byte), ¬ (a = 0 ∧ b = 0 ∧ c = 0) →
      exec (.teardown a b c p) s = .next { s with lastStatus := 0x06, response := some { status := .badOperand, cause := none, data := [] } }) ∧
    (∀ p : List Byte, p ≠ [] →
      exec (.teardown 0 0 0 p) s = .next { s with lastStatus := 0x04, response := some { status := .badLength, cause := none, data := [] } })

/-- R229, R45: READ_REG of every register number of the map completes in every lifecycle state and in both families, with the value of the
map, and changes nothing but the response. -/
def Obligations.ReadRegCompletes : Prop :=
  ∀ s : State,
    let answers := fun (n v : Byte) => exec (.readReg n 0 0 []) s =
      .next { s with response := some { status := .ok, cause := none, data := [v] } }
    (∃ v : Byte, answers 0x00 v ∧
      v.toNat = (match s.lifecycle with | .uninitialized => 0 | .ready => 1 | .failed => 2 | .released => 3)
        + 4 * s.busDesync.toNat + 16 * (match s.family with | .char => 0 | .graphic => 1)) ∧
    (∃ v : Byte, answers 0x01 v ∧
      v.toNat = s.blinkOn.toNat + 2 * s.cursorOn.toNat + 4 * s.displayOn.toNat + 8 * s.backlight.toNat) ∧
    answers 0x02 s.width ∧ answers 0x03 s.height ∧
    answers 0x04 (s.lineOffset0.setWidth 8) ∧ answers 0x05 (s.lineOffset1.setWidth 8) ∧
    answers 0x06 (s.lineOffset2.setWidth 8) ∧ answers 0x07 (s.lineOffset3.setWidth 8) ∧
    answers 0x08 s.variant ∧ answers 0x09 s.lastStatus ∧
    (s.store.wf → ∀ n : Byte, 0x40 ≤ n.toNat → n.toNat ≤ 0x7F → ∃ v, s.store.read (n.toNat - 0x40) = some v ∧ answers n v)

-- ---------------------------------------------------------------- character-family requests

/-- R250, R251: CLEAR and HOME complete. -/
def Obligations.ClearAndHomeComplete : Prop :=
  ∀ s : State, s.family = .char → s.lifecycle = .ready →
    (s.env.acksBus 12 → s.env.servesWaits 10 →
      exec (.clear 0 0 0 []) s =
        .next (answered s (byteXfer s.params s.backlight 0x01 false ++ [.wait .clear s.params.tClear] ++
          byteXfer s.params s.backlight 0x02 false ++ [.wait .home s.params.tHome]) 12 10 [])) ∧
    (s.env.acksBus 6 → s.env.servesWaits 5 →
      exec (.home 0 0 0 []) s =
        .next (answered s (byteXfer s.params s.backlight 0x02 false ++ [.wait .home s.params.tHome]) 6 5 []))

/-- R252: SET_POS of a valid position sends 0x80 | (LINE_OFFSET[y] + x) and stores nothing; an invalid position is answered
ERR_BAD_POSITION with no transaction. -/
def Obligations.SetPosSendsTheDdramAddress : Prop :=
  ∀ (s : State) (x y : Byte), s.family = .char → s.lifecycle = .ready →
    (∀ base : BitVec 7, x.toNat < s.width.toNat → y.toNat < s.height.toNat →
      [s.lineOffset0, s.lineOffset1, s.lineOffset2, s.lineOffset3][y.toNat]? = some base →
      s.env.acksBus 6 → s.env.servesWaits 4 →
      exec (.setPos x y 0 []) s =
        .next (answered s (byteXfer s.params s.backlight (0x80 ||| (base + x.setWidth 7).setWidth 8) false) 6 4 [])) ∧
    (¬ (x.toNat < s.width.toNat ∧ y.toNat < s.height.toNat) →
      exec (.setPos x y 0 []) s =
        .next { s with lastStatus := 0x05, response := some { status := .badPosition, cause := none, data := [] } })

/-- R41: for every valid position of a READY character-family block the address is the exact sum, at most 0x67, within a row span of the
controller; so SET_POS never meets a row it has no offset for. -/
def Obligations.DdramAddressStaysInItsRowSpan : Prop :=
  ∀ (s : State) (x y : Byte), BlockInv s → s.family = .char → s.lifecycle = .ready →
    x.toNat < s.width.toNat → y.toNat < s.height.toNat →
    ∃ base : BitVec 7, [s.lineOffset0, s.lineOffset1, s.lineOffset2, s.lineOffset3][y.toNat]? = some base ∧
      (base + x.setWidth 7).toNat = base.toNat + x.toNat ∧
      (base.toNat + x.toNat ≤ 0x27 ∨ (0x40 ≤ base.toNat + x.toNat ∧ base.toNat + x.toNat ≤ 0x67))

/-- R254, R255: WRITE_TEXT sends each payload byte as a data byte; WRITE_TEXT_AT_LINE sends the address of (0, row) first. -/
def Obligations.TextCompletes : Prop :=
  ∀ (s : State) (p : List Byte), s.family = .char → s.lifecycle = .ready → p.length ≤ s.params.maxPayload →
    (s.env.acksBus (6 * p.length) → s.env.servesWaits (4 * p.length) →
      exec (.writeText 0 0 0 p) s =
        .next (answered s (p.flatMap fun b => byteXfer s.params s.backlight b true) (6 * p.length) (4 * p.length) [])) ∧
    (∀ (row : Byte) (base : BitVec 7), 0 < s.width.toNat → row.toNat < s.height.toNat →
      [s.lineOffset0, s.lineOffset1, s.lineOffset2, s.lineOffset3][row.toNat]? = some base →
      s.env.acksBus (6 * (p.length + 1)) → s.env.servesWaits (4 * (p.length + 1)) →
      exec (.writeTextAtLine row 0 0 p) s =
        .next (answered s (byteXfer s.params s.backlight (0x80 ||| base.setWidth 8) false ++
          p.flatMap fun b => byteXfer s.params s.backlight b true) (6 * (p.length + 1)) (4 * (p.length + 1)) []))

/-- R108: WRITE_TEXT_AT_LINE leaves what SET_POS of (0, row) followed by WRITE_TEXT leaves, when both succeed. -/
def Obligations.TextAtLineIsPositionThenText : Prop :=
  ∀ (s u t : State) (row : Byte) (p : List Byte),
    exec (.setPos 0 row 0 []) s = .next u → u.lastStatus = 0x00 →
    exec (.writeText 0 0 0 p) u = .next t → t.lastStatus = 0x00 →
    exec (.writeTextAtLine row 0 0 p) s = .next t

/-- R256, R257: SET_CURSOR_STYLE and SET_DISPLAY_ON write their flags and send 0x08 | D<<2 | C<<1 | B; the other flags are as before. -/
def Obligations.DisplayFlagRequestsComplete : Prop :=
  ∀ (s : State) (x y : Bool), s.family = .char → s.lifecycle = .ready → s.env.acksBus 6 → s.env.servesWaits 4 →
    exec (.setCursorStyle x y 0 0 0 []) s =
      .next (answered { s with cursorOn := x, blinkOn := y }
        (byteXfer s.params s.backlight (BitVec.ofNat 8 (0x08 + 4 * s.displayOn.toNat + 2 * x.toNat + y.toNat)) false) 6 4 []) ∧
    exec (.setDisplayOnChar x 0 0 0 []) s =
      .next (answered { s with displayOn := x }
        (byteXfer s.params s.backlight (BitVec.ofNat 8 (0x08 + 4 * x.toNat + 2 * s.cursorOn.toNat + s.blinkOn.toNat)) false) 6 4 [])

/-- R258: two successful SET_DISPLAY_ON of the same value in a row leave the same flags after each, emit two identical traces, and leave
cursor, blink and backlight alone. -/
def Obligations.SetDisplayOnIsIdempotent : Prop :=
  ∀ (s u t : State) (on : Bool),
    exec (.setDisplayOnChar on 0 0 0 []) s = .next u → u.lastStatus = 0x00 →
    exec (.setDisplayOnChar on 0 0 0 []) u = .next t → t.lastStatus = 0x00 →
    flagsRegister t = flagsRegister u ∧
    (∃ evs, evs ≠ [] ∧ u.trace = s.trace ++ evs ∧ t.trace = u.trace ++ evs) ∧
    t.cursorOn = s.cursorOn ∧ t.blinkOn = s.blinkOn ∧ t.backlight = s.backlight ∧ t.displayOn = on

/-- R259, R177: SET_BACKLIGHT writes the flag and sends one byte that carries only the backlight bit, with no wait. That byte is then what
the expander's port holds (R318, R352); that the port is computed from the trace, not held in State, is the model's choice (log entry
14). -/
def Obligations.SetBacklightCompletes : Prop :=
  ∀ (s : State) (on : Bool), s.family = .char → s.lifecycle = .ready → s.env.acksBus 1 →
    ∃ t, exec (.setBacklight on 0 0 0 []) s = .next t ∧
      t = answered { s with backlight := on } [.bus s.params.busAddr [if on then s.params.maskBl else 0x00]] 1 0 [] ∧
      expanderPort t.trace = some (if on then s.params.maskBl else 0x00)

/-- R260: SET_GLYPH writes exactly the eight bytes of its slot and sends the CGRAM address and the same eight bytes. -/
def Obligations.SetGlyphCompletes : Prop :=
  ∀ (s : State) (index : Byte) (p : List Byte), s.family = .char → s.lifecycle = .ready → index.toNat ≤ 7 → p.length = 8 →
    s.env.acksBus 54 → s.env.servesWaits 36 →
    ∃ m : Memory,
      exec (.setGlyph index 0 0 p) s =
        .next (answered { s with store := m }
          (byteXfer s.params s.backlight (BitVec.ofNat 8 (0x40 + 8 * index.toNat)) false ++
            p.flatMap fun b => byteXfer s.params s.backlight b true) 54 36 []) ∧
      (∀ k, k < 8 → m.read (8 * index.toNat + k) = p[k]?) ∧
      (∀ a, a < 8 * index.toNat ∨ 8 * index.toNat + 8 ≤ a → m.read a = s.store.read a)

/-- R261: SET_ALL_GLYPHS writes all 64 bytes and sends the CGRAM address 0 and the same 64 bytes. -/
def Obligations.SetAllGlyphsCompletes : Prop :=
  ∀ (s : State) (p : List Byte), s.family = .char → s.lifecycle = .ready → p.length = 64 →
    s.env.acksBus 390 → s.env.servesWaits 260 →
    ∃ m : Memory,
      exec (.setAllGlyphs 0 0 0 p) s =
        .next (answered { s with store := m }
          (byteXfer s.params s.backlight 0x40 false ++ p.flatMap fun b => byteXfer s.params s.backlight b true) 390 260 []) ∧
      (∀ k, k < 64 → m.read k = p[k]?) ∧
      (∀ a, 64 ≤ a → m.read a = s.store.read a)

/-- R262, R263: GET_GLYPH and GET_ALL_GLYPHS answer the store's bytes, row 0 first, with no event, and change nothing but LAST_STATUS and the
response. -/
def Obligations.GlyphReadersComplete : Prop :=
  ∀ s : State, s.family = .char → s.lifecycle = .ready → s.store.wf →
    (∀ index : Byte, index.toNat ≤ 7 → ∃ bytes : List Byte, bytes.length = 8 ∧
      (∀ k, k < 8 → s.store.read (8 * index.toNat + k) = bytes[k]?) ∧
      exec (.getGlyph index 0 0 []) s =
        .next { s with lastStatus := 0x00, response := some { status := .ok, cause := none, data := bytes } }) ∧
    (∃ bytes : List Byte, bytes.length = 64 ∧ (∀ k, k < 64 → s.store.read k = bytes[k]?) ∧
      exec (.getAllGlyphs 0 0 0 []) s =
        .next { s with lastStatus := 0x00, response := some { status := .ok, cause := none, data := bytes } })

/-- R149 to R152: the raw encoder requests complete with the byte of their encoder function and write no state of the block. -/
def Obligations.EncoderRequestsComplete : Prop :=
  ∀ (s : State) (x y : Bool) (off : Byte), s.family = .char → s.lifecycle = .ready → s.env.acksBus 6 → s.env.servesWaits 4 →
    let sends := fun (v : Nat) => Host.Outcome.next (φ := Fault) (ρ := Refusal)
      (answered s (byteXfer s.params s.backlight (BitVec.ofNat 8 v) false) 6 4 [])
    exec (.cmdEntryMode x y 0 0 0 []) s = sends (0x04 + 2 * x.toNat + y.toNat) ∧
    exec (.cmdFunctionSet false x y 0 0 0 []) s = sends (0x20 + 8 * x.toNat + 4 * y.toNat) ∧
    (off.toNat ≤ 0x3F → exec (.cmdSetCgram off 0 0 []) s = sends (0x40 + off.toNat)) ∧
    (off.toNat ≤ 0x7F → exec (.cmdSetDdram off 0 0 []) s = sends (0x80 + off.toNat))

/-- R175, R176: the raw bytes of the character family are sent unfiltered, with RS 0 for a command and 1 for data. -/
def Obligations.RawBytesCharComplete : Prop :=
  ∀ (s : State) (v : Byte), s.family = .char → s.lifecycle = .ready → s.env.acksBus 6 → s.env.servesWaits 4 →
    exec (.writeCommandChar v 0 0 []) s = .next (answered s (byteXfer s.params s.backlight v false) 6 4 []) ∧
    exec (.writeDataChar v 0 0 []) s = .next (answered s (byteXfer s.params s.backlight v true) 6 4 [])

-- ---------------------------------------------------------------- graphic-family requests

/-- R194, R195, R196, with R190 to R192: the raw requests of the graphic family. -/
def Obligations.RawBytesGraphicComplete : Prop :=
  ∀ (s : State) (v : Byte) (p : List Byte), s.family = .graphic → s.lifecycle = .ready →
    (s.env.acksBus 1 →
      exec (.writeCommandGraphic v 0 0 []) s = .next (answered s [.bus s.params.busAddr [s.params.ctrlCmd, v]] 1 0 []) ∧
      exec (.writeDataGraphic v 0 0 []) s = .next (answered s [.bus s.params.busAddr [s.params.ctrlData1, v]] 1 0 [])) ∧
    (s.env.acksBus 2 → 1 ≤ p.length → p.length ≤ s.params.maxPayload →
      exec (.writeDataStream 0 0 0 p) s =
        .next (answered s [.bus s.params.busAddr [s.params.ctrlStream], .bus s.params.busAddr p] 2 0 [])) ∧
    (p.length = 0 ∨ s.params.maxPayload < p.length →
      exec (.writeDataStream 0 0 0 p) s =
        .next { s with lastStatus := 0x04, response := some { status := .badLength, cause := none, data := [] } })

/-- R197 to R200: the display settings of the graphic family; contrast is exactly two framed command bytes, and only SET_DISPLAY_ON writes
state, its flag. -/
def Obligations.GraphicSettingsComplete : Prop :=
  ∀ (s : State) (v : Byte) (on : Bool), s.family = .graphic → s.lifecycle = .ready →
    let cmd := fun (c : Byte) => Event.bus s.params.busAddr [s.params.ctrlCmd, c]
    (s.env.acksBus 2 → exec (.setContrast v 0 0 []) s = .next (answered s [cmd 0x81, cmd v] 2 0 [])) ∧
    (s.env.acksBus 1 →
      exec (.setAllPixelsOn on 0 0 0 []) s = .next (answered s [cmd (if on then 0xA5 else 0xA4)] 1 0 []) ∧
      exec (.setInverse on 0 0 0 []) s = .next (answered s [cmd (if on then 0xA7 else 0xA6)] 1 0 []) ∧
      exec (.setDisplayOnGraphic on 0 0 0 []) s =
        .next (answered { s with displayOn := on } [cmd (if on then 0xAF else 0xAE)] 1 0 []))

-- ---------------------------------------------------------------- bare controller commands (log entry 7)

/-- The character-family controller commands of the opcode table (R111, R222): each sends the encoder's byte, don't-care bits as 0, and changes
nothing else; one of the graphic family is answered ERR_UNSUPPORTED_OP. That one is run by itself is the model's choice (log entry 7). -/
def Obligations.HdCommandsComplete : Prop :=
  ∀ (s : State) (x y z : Bool) (r2 : BitVec 2) (a6 : BitVec 6) (a7 : BitVec 7), s.family = .char → s.lifecycle ≠ .released →
    (s.env.acksBus 6 → s.env.servesWaits 4 →
      let sends := fun (v : Nat) => Host.Outcome.next (φ := Fault) (ρ := Refusal)
        { s with trace := s.trace ++ byteXfer s.params s.backlight (BitVec.ofNat 8 v) false, env := s.env.after 6 4 }
      exec .hdClear s = sends 0x01 ∧
      exec (.hdHome x) s = sends 0x02 ∧
      exec (.hdEntryMode x y) s = sends (0x04 + 2 * x.toNat + y.toNat) ∧
      exec (.hdDisplayControl x y z) s = sends (0x08 + 4 * x.toNat + 2 * y.toNat + z.toNat) ∧
      exec (.hdFunctionSet false x y r2) s = sends (0x20 + 8 * x.toNat + 4 * y.toNat) ∧
      exec (.hdSetCgramAddr a6) s = sends (0x40 + a6.toNat) ∧
      exec (.hdSetDdramAddr a7) s = sends (0x80 + a7.toNat)) ∧
    (exec (.hdFunctionSet true x y r2) s =
      .next { s with lastStatus := 0x07, response := some { status := .unsupportedConfig, cause := none, data := [] } }) ∧
    (s.env.acksBus 3 → s.env.servesWaits 2 →
      exec .nibIfaceReset s =
        .next { s with trace := s.trace ++ nibbleXfer s.params s.backlight 0x3 false, env := s.env.after 3 2 } ∧
      exec .nibIface4bit s =
        .next { s with trace := s.trace ++ nibbleXfer s.params s.backlight 0x2 false, env := s.env.after 3 2 }) ∧
    (∀ i : Instr, i.isRequest = false → i.onlyFamily = some .graphic →
      exec i s = .next { s with lastStatus := 0x0A, response := some { status := .unsupportedOp, cause := none, data := [] } })

/-- The graphic-family controller commands of the opcode table (R113): each sends its framed bytes and changes nothing else; one of the
character family is answered ERR_UNSUPPORTED_OP. That one is run by itself is the model's choice (log entry 7). -/
def Obligations.OledCommandsComplete : Prop :=
  ∀ (s : State) (v : Byte) (b : Bool), s.family = .graphic → s.lifecycle ≠ .released →
    let cmd := fun (c : Byte) => Event.bus s.params.busAddr [s.params.ctrlCmd, c]
    (s.env.acksBus 2 →
      exec (.oledSetContrast v) s = .next { s with trace := s.trace ++ [cmd 0x81, cmd v], env := s.env.after 2 0 }) ∧
    (s.env.acksBus 1 →
      exec (.oledAllOn b) s = .next { s with trace := s.trace ++ [cmd (if b then 0xA5 else 0xA4)], env := s.env.after 1 0 } ∧
      exec (.oledInverse b) s = .next { s with trace := s.trace ++ [cmd (if b then 0xA7 else 0xA6)], env := s.env.after 1 0 } ∧
      exec (.oledDisplay b) s = .next { s with trace := s.trace ++ [cmd (if b then 0xAF else 0xAE)], env := s.env.after 1 0 }) ∧
    (∀ i : Instr, i.isRequest = false → i.onlyFamily = some .char →
      exec i s = .next { s with lastStatus := 0x0A, response := some { status := .unsupportedOp, cause := none, data := [] } })

-- ---------------------------------------------------------------- transport failures and stuck states

/-- R308, R174, R264: let an instruction other than INIT emit `evs` when every transaction is acknowledged, ending in `u`. If instead its
transaction number `k` fails, that transaction is the last event, every state write of the successful run is kept, BUS_DESYNC is set,
LAST_STATUS is ERR_TRANSPORT and the response carries the cause. For a bare controller command the answer is the model's
choice (log entry 7). -/
def Obligations.TransportFailureCutsTheTraceAndKeepsTheWrites : Prop :=
  ∀ (i : Instr) (s u : State) (e : Env) (evs : List Event) (k : Nat) (c : Cause),
    i.isInit = false → exec i { s with env := e } = .next u → u.trace = s.trace ++ evs → e.acksBus (busCount evs) →
    k < busCount evs → s.env.acksBus k → s.env.answer k = .fail c → s.env.servesWaits (waitCount evs) →
    exec i s = .next { u with trace := s.trace ++ cutAfterBus k evs, busDesync := true, lastStatus := 0x08,
                              response := some { status := .transport, cause := some c, data := [] },
                              env := s.env.after (k + 1) (waitCount (cutAfterBus k evs)) }

/-- R309: a transaction the transport never answers, or a wait the host never serves, leaves the block stuck. -/
def Obligations.UnansweredTransactionIsStuck : Prop :=
  ∀ (i : Instr) (s u : State) (e : Env) (evs : List Event),
    exec i { s with env := e } = .next u → u.trace = s.trace ++ evs → e.acksBus (busCount evs) →
    (∀ k, k < busCount evs → s.env.acksBus k → s.env.answer k = .never → s.env.servesWaits (waitCount evs) →
      exec i s = .fault .transportSilent) ∧
    (∀ m, s.env.waits = some m → m < waitCount evs → s.env.acksBus (busCount evs) → exec i s = .fault .waitUnserved)

/-- R353: the trace sizes of every request that answers OK. -/
def Obligations.TraceSizes : Prop :=
  ∀ (i : Instr) (s t : State) (r : Response), i.isRequest = true → exec i s = .next t → t.response = some r → r.status = .ok →
    ∃ evs, t.trace = s.trace ++ evs ∧ (busCount evs, waitCount evs, releaseCount evs) = traceSize i s

-- ---------------------------------------------------------------- frames

/-- The frame of the requests that write no state of the block, and of the bare controller commands: whatever next state one answers, only
the outputs (trace, LAST_STATUS, BUS_DESYNC, response) and the environment may differ; every flag, the geometry, the lifecycle, the handle
and every byte of the store are as before (R46, R149 to R152, R175, R176, R194 to R199, R250 to R255, R262, R263; log entry 7). -/
def Obligations.FrameOfInstructionsThatWriteNoState : Prop :=
  ∀ (s t : State) (a b c : Byte) (p : List Byte) (x y z : Bool) (r5 : BitVec 5) (r6 : BitVec 6) (r7 : BitVec 7),
    (∀ i ∈ [Instr.clear a b c p, .home a b c p, .setPos a b c p, .writeText a b c p, .writeTextAtLine a b c p, .getGlyph a b c p,
            .getAllGlyphs a b c p, .writeCommandChar a b c p, .writeCommandGraphic a b c p, .writeDataChar a b c p,
            .writeDataGraphic a b c p, .writeDataStream a b c p, .cmdEntryMode x y r6 b c p, .cmdFunctionSet x y z r5 b c p,
            .cmdSetCgram a b c p, .cmdSetDdram a b c p, .setContrast a b c p, .setAllPixelsOn x r7 b c p, .setInverse x r7 b c p],
      exec i s = .next t → OnlyOutputs s t) ∧
    (∀ i : Instr, i.isRequest = false → exec i s = .next t → OnlyOutputs s t)

/-- The frame of the flag requests: beside the outputs and the environment, only the flags each names may differ (R256, R257, R200, R259). -/
def Obligations.FrameOfFlagRequests : Prop :=
  ∀ (s t : State) (x y : Bool) (r6 : BitVec 6) (r7 : BitVec 7) (b c : Byte) (p : List Byte),
    (exec (.setCursorStyle x y r6 b c p) s = .next t →
      OnlyOutputs { s with cursorOn := t.cursorOn, blinkOn := t.blinkOn } t) ∧
    (exec (.setDisplayOnChar x r7 b c p) s = .next t → OnlyOutputs { s with displayOn := t.displayOn } t) ∧
    (exec (.setDisplayOnGraphic x r7 b c p) s = .next t → OnlyOutputs { s with displayOn := t.displayOn } t) ∧
    (exec (.setBacklight x r7 b c p) s = .next t → OnlyOutputs { s with backlight := t.backlight } t)

/-- The frame of the glyph writers: beside the outputs and the environment, only the store may differ, and in it only the bytes of the slot
(R260) or of the whole store (R261). -/
def Obligations.FrameOfGlyphWriters : Prop :=
  ∀ (s t : State) (a b c : Byte) (p : List Byte),
    (exec (.setGlyph a b c p) s = .next t →
      OnlyOutputs { s with store := t.store } t ∧
      ∀ k, k < 8 * a.toNat ∨ 8 * a.toNat + 8 ≤ k → t.store.read k = s.store.read k) ∧
    (exec (.setAllGlyphs a b c p) s = .next t →
      OnlyOutputs { s with store := t.store } t ∧ ∀ k, 64 ≤ k → t.store.read k = s.store.read k)

/-- The frame of INIT, TEARDOWN and READ_REG: INIT writes lifecycle, geometry and flags, and not the store, the handle or the parameters
(R220, R43, R341); TEARDOWN writes the handle and the lifecycle and adds no transaction (R227); READ_REG changes only the response (R229). -/
def Obligations.FrameOfLifecycleRequests : Prop :=
  ∀ (s t : State) (v a b c : Byte) (bl on : Bool) (r6 : BitVec 6) (p : List Byte),
    (exec (.init v bl on r6 c p) s = .next t →
      OnlyOutputs { s with lifecycle := t.lifecycle, variant := t.variant, width := t.width, height := t.height,
                           lineOffset0 := t.lineOffset0, lineOffset1 := t.lineOffset1, lineOffset2 := t.lineOffset2,
                           lineOffset3 := t.lineOffset3, displayOn := t.displayOn, cursorOn := t.cursorOn, blinkOn := t.blinkOn,
                           backlight := t.backlight } t) ∧
    (exec (.teardown a b c p) s = .next t →
      t = { s with lifecycle := t.lifecycle, handleHeld := t.handleHeld, trace := t.trace, lastStatus := t.lastStatus,
                   response := t.response } ∧ busCount t.trace = busCount s.trace) ∧
    (exec (.readReg a b c p) s = .next t → t = { s with response := t.response })
end

