-- ==== Sys2Proof/Laws/State.lean ====
section
/-! SUPPORT. What each named update of the state does to each field, so that no proof unfolds a record update. -/

namespace Sys2Proof.Machine

-- State.logEvent
@[simp] theorem State.logEvent_params (s : State) (ev : Event) (e : Env) : (s.logEvent ev e).params = s.params := rfl
@[simp] theorem State.logEvent_lifecycle (s : State) (ev : Event) (e : Env) : (s.logEvent ev e).lifecycle = s.lifecycle := rfl
@[simp] theorem State.logEvent_busDesync (s : State) (ev : Event) (e : Env) : (s.logEvent ev e).busDesync = s.busDesync := rfl
@[simp] theorem State.logEvent_lastStatus (s : State) (ev : Event) (e : Env) : (s.logEvent ev e).lastStatus = s.lastStatus := rfl
@[simp] theorem State.logEvent_displayOn (s : State) (ev : Event) (e : Env) : (s.logEvent ev e).displayOn = s.displayOn := rfl
@[simp] theorem State.logEvent_cursorOn (s : State) (ev : Event) (e : Env) : (s.logEvent ev e).cursorOn = s.cursorOn := rfl
@[simp] theorem State.logEvent_blinkOn (s : State) (ev : Event) (e : Env) : (s.logEvent ev e).blinkOn = s.blinkOn := rfl
@[simp] theorem State.logEvent_backlight (s : State) (ev : Event) (e : Env) : (s.logEvent ev e).backlight = s.backlight := rfl
@[simp] theorem State.logEvent_variant (s : State) (ev : Event) (e : Env) : (s.logEvent ev e).variant = s.variant := rfl
@[simp] theorem State.logEvent_width (s : State) (ev : Event) (e : Env) : (s.logEvent ev e).width = s.width := rfl
@[simp] theorem State.logEvent_height (s : State) (ev : Event) (e : Env) : (s.logEvent ev e).height = s.height := rfl
@[simp] theorem State.logEvent_lineOffset0 (s : State) (ev : Event) (e : Env) : (s.logEvent ev e).lineOffset0 = s.lineOffset0 := rfl
@[simp] theorem State.logEvent_lineOffset1 (s : State) (ev : Event) (e : Env) : (s.logEvent ev e).lineOffset1 = s.lineOffset1 := rfl
@[simp] theorem State.logEvent_lineOffset2 (s : State) (ev : Event) (e : Env) : (s.logEvent ev e).lineOffset2 = s.lineOffset2 := rfl
@[simp] theorem State.logEvent_lineOffset3 (s : State) (ev : Event) (e : Env) : (s.logEvent ev e).lineOffset3 = s.lineOffset3 := rfl
@[simp] theorem State.logEvent_store (s : State) (ev : Event) (e : Env) : (s.logEvent ev e).store = s.store := rfl
@[simp] theorem State.logEvent_handleHeld (s : State) (ev : Event) (e : Env) : (s.logEvent ev e).handleHeld = s.handleHeld := rfl
@[simp] theorem State.logEvent_port (s : State) (ev : Event) (e : Env) : (s.logEvent ev e).port = s.port := rfl
@[simp] theorem State.logEvent_trace (s : State) (ev : Event) (e : Env) : (s.logEvent ev e).trace = s.trace ++ [ev] := rfl
@[simp] theorem State.logEvent_response (s : State) (ev : Event) (e : Env) : (s.logEvent ev e).response = s.response := rfl
@[simp] theorem State.logEvent_env (s : State) (ev : Event) (e : Env) : (s.logEvent ev e).env = e := rfl

-- State.sent
@[simp] theorem State.sent_params (s : State) (evs : List Event) : (s.sent evs).params = s.params := rfl
@[simp] theorem State.sent_lifecycle (s : State) (evs : List Event) : (s.sent evs).lifecycle = s.lifecycle := rfl
@[simp] theorem State.sent_busDesync (s : State) (evs : List Event) : (s.sent evs).busDesync = s.busDesync := rfl
@[simp] theorem State.sent_lastStatus (s : State) (evs : List Event) : (s.sent evs).lastStatus = s.lastStatus := rfl
@[simp] theorem State.sent_displayOn (s : State) (evs : List Event) : (s.sent evs).displayOn = s.displayOn := rfl
@[simp] theorem State.sent_cursorOn (s : State) (evs : List Event) : (s.sent evs).cursorOn = s.cursorOn := rfl
@[simp] theorem State.sent_blinkOn (s : State) (evs : List Event) : (s.sent evs).blinkOn = s.blinkOn := rfl
@[simp] theorem State.sent_backlight (s : State) (evs : List Event) : (s.sent evs).backlight = s.backlight := rfl
@[simp] theorem State.sent_variant (s : State) (evs : List Event) : (s.sent evs).variant = s.variant := rfl
@[simp] theorem State.sent_width (s : State) (evs : List Event) : (s.sent evs).width = s.width := rfl
@[simp] theorem State.sent_height (s : State) (evs : List Event) : (s.sent evs).height = s.height := rfl
@[simp] theorem State.sent_lineOffset0 (s : State) (evs : List Event) : (s.sent evs).lineOffset0 = s.lineOffset0 := rfl
@[simp] theorem State.sent_lineOffset1 (s : State) (evs : List Event) : (s.sent evs).lineOffset1 = s.lineOffset1 := rfl
@[simp] theorem State.sent_lineOffset2 (s : State) (evs : List Event) : (s.sent evs).lineOffset2 = s.lineOffset2 := rfl
@[simp] theorem State.sent_lineOffset3 (s : State) (evs : List Event) : (s.sent evs).lineOffset3 = s.lineOffset3 := rfl
@[simp] theorem State.sent_store (s : State) (evs : List Event) : (s.sent evs).store = s.store := rfl
@[simp] theorem State.sent_handleHeld (s : State) (evs : List Event) : (s.sent evs).handleHeld = s.handleHeld := rfl
@[simp] theorem State.sent_port (s : State) (evs : List Event) : (s.sent evs).port = s.port := rfl
@[simp] theorem State.sent_trace (s : State) (evs : List Event) : (s.sent evs).trace = s.trace ++ evs := rfl
@[simp] theorem State.sent_response (s : State) (evs : List Event) : (s.sent evs).response = s.response := rfl
@[simp] theorem State.sent_env (s : State) (evs : List Event) : (s.sent evs).env = s.env.after (busCount evs) (waitCount evs) := rfl

-- State.setLifecycle
@[simp] theorem State.setLifecycle_params (s : State) (l : Lifecycle) : (s.setLifecycle l).params = s.params := rfl
@[simp] theorem State.setLifecycle_lifecycle (s : State) (l : Lifecycle) : (s.setLifecycle l).lifecycle = l := rfl
@[simp] theorem State.setLifecycle_busDesync (s : State) (l : Lifecycle) : (s.setLifecycle l).busDesync = s.busDesync := rfl
@[simp] theorem State.setLifecycle_lastStatus (s : State) (l : Lifecycle) : (s.setLifecycle l).lastStatus = s.lastStatus := rfl
@[simp] theorem State.setLifecycle_displayOn (s : State) (l : Lifecycle) : (s.setLifecycle l).displayOn = s.displayOn := rfl
@[simp] theorem State.setLifecycle_cursorOn (s : State) (l : Lifecycle) : (s.setLifecycle l).cursorOn = s.cursorOn := rfl
@[simp] theorem State.setLifecycle_blinkOn (s : State) (l : Lifecycle) : (s.setLifecycle l).blinkOn = s.blinkOn := rfl
@[simp] theorem State.setLifecycle_backlight (s : State) (l : Lifecycle) : (s.setLifecycle l).backlight = s.backlight := rfl
@[simp] theorem State.setLifecycle_variant (s : State) (l : Lifecycle) : (s.setLifecycle l).variant = s.variant := rfl
@[simp] theorem State.setLifecycle_width (s : State) (l : Lifecycle) : (s.setLifecycle l).width = s.width := rfl
@[simp] theorem State.setLifecycle_height (s : State) (l : Lifecycle) : (s.setLifecycle l).height = s.height := rfl
@[simp] theorem State.setLifecycle_lineOffset0 (s : State) (l : Lifecycle) : (s.setLifecycle l).lineOffset0 = s.lineOffset0 := rfl
@[simp] theorem State.setLifecycle_lineOffset1 (s : State) (l : Lifecycle) : (s.setLifecycle l).lineOffset1 = s.lineOffset1 := rfl
@[simp] theorem State.setLifecycle_lineOffset2 (s : State) (l : Lifecycle) : (s.setLifecycle l).lineOffset2 = s.lineOffset2 := rfl
@[simp] theorem State.setLifecycle_lineOffset3 (s : State) (l : Lifecycle) : (s.setLifecycle l).lineOffset3 = s.lineOffset3 := rfl
@[simp] theorem State.setLifecycle_store (s : State) (l : Lifecycle) : (s.setLifecycle l).store = s.store := rfl
@[simp] theorem State.setLifecycle_handleHeld (s : State) (l : Lifecycle) : (s.setLifecycle l).handleHeld = s.handleHeld := rfl
@[simp] theorem State.setLifecycle_port (s : State) (l : Lifecycle) : (s.setLifecycle l).port = s.port := rfl
@[simp] theorem State.setLifecycle_trace (s : State) (l : Lifecycle) : (s.setLifecycle l).trace = s.trace := rfl
@[simp] theorem State.setLifecycle_response (s : State) (l : Lifecycle) : (s.setLifecycle l).response = s.response := rfl
@[simp] theorem State.setLifecycle_env (s : State) (l : Lifecycle) : (s.setLifecycle l).env = s.env := rfl

-- State.setDesync
@[simp] theorem State.setDesync_params (s : State) : (s.setDesync).params = s.params := rfl
@[simp] theorem State.setDesync_lifecycle (s : State) : (s.setDesync).lifecycle = s.lifecycle := rfl
@[simp] theorem State.setDesync_busDesync (s : State) : (s.setDesync).busDesync = true := rfl
@[simp] theorem State.setDesync_lastStatus (s : State) : (s.setDesync).lastStatus = s.lastStatus := rfl
@[simp] theorem State.setDesync_displayOn (s : State) : (s.setDesync).displayOn = s.displayOn := rfl
@[simp] theorem State.setDesync_cursorOn (s : State) : (s.setDesync).cursorOn = s.cursorOn := rfl
@[simp] theorem State.setDesync_blinkOn (s : State) : (s.setDesync).blinkOn = s.blinkOn := rfl
@[simp] theorem State.setDesync_backlight (s : State) : (s.setDesync).backlight = s.backlight := rfl
@[simp] theorem State.setDesync_variant (s : State) : (s.setDesync).variant = s.variant := rfl
@[simp] theorem State.setDesync_width (s : State) : (s.setDesync).width = s.width := rfl
@[simp] theorem State.setDesync_height (s : State) : (s.setDesync).height = s.height := rfl
@[simp] theorem State.setDesync_lineOffset0 (s : State) : (s.setDesync).lineOffset0 = s.lineOffset0 := rfl
@[simp] theorem State.setDesync_lineOffset1 (s : State) : (s.setDesync).lineOffset1 = s.lineOffset1 := rfl
@[simp] theorem State.setDesync_lineOffset2 (s : State) : (s.setDesync).lineOffset2 = s.lineOffset2 := rfl
@[simp] theorem State.setDesync_lineOffset3 (s : State) : (s.setDesync).lineOffset3 = s.lineOffset3 := rfl
@[simp] theorem State.setDesync_store (s : State) : (s.setDesync).store = s.store := rfl
@[simp] theorem State.setDesync_handleHeld (s : State) : (s.setDesync).handleHeld = s.handleHeld := rfl
@[simp] theorem State.setDesync_port (s : State) : (s.setDesync).port = s.port := rfl
@[simp] theorem State.setDesync_trace (s : State) : (s.setDesync).trace = s.trace := rfl
@[simp] theorem State.setDesync_response (s : State) : (s.setDesync).response = s.response := rfl
@[simp] theorem State.setDesync_env (s : State) : (s.setDesync).env = s.env := rfl

-- State.setGeometry
@[simp] theorem State.setGeometry_params (s : State) (v : Byte) (g : Geometry) : (s.setGeometry v g).params = s.params := rfl
@[simp] theorem State.setGeometry_lifecycle (s : State) (v : Byte) (g : Geometry) : (s.setGeometry v g).lifecycle = s.lifecycle := rfl
@[simp] theorem State.setGeometry_busDesync (s : State) (v : Byte) (g : Geometry) : (s.setGeometry v g).busDesync = s.busDesync := rfl
@[simp] theorem State.setGeometry_lastStatus (s : State) (v : Byte) (g : Geometry) : (s.setGeometry v g).lastStatus = s.lastStatus := rfl
@[simp] theorem State.setGeometry_displayOn (s : State) (v : Byte) (g : Geometry) : (s.setGeometry v g).displayOn = s.displayOn := rfl
@[simp] theorem State.setGeometry_cursorOn (s : State) (v : Byte) (g : Geometry) : (s.setGeometry v g).cursorOn = s.cursorOn := rfl
@[simp] theorem State.setGeometry_blinkOn (s : State) (v : Byte) (g : Geometry) : (s.setGeometry v g).blinkOn = s.blinkOn := rfl
@[simp] theorem State.setGeometry_backlight (s : State) (v : Byte) (g : Geometry) : (s.setGeometry v g).backlight = s.backlight := rfl
@[simp] theorem State.setGeometry_variant (s : State) (v : Byte) (g : Geometry) : (s.setGeometry v g).variant = v := rfl
@[simp] theorem State.setGeometry_width (s : State) (v : Byte) (g : Geometry) : (s.setGeometry v g).width = g.width := rfl
@[simp] theorem State.setGeometry_height (s : State) (v : Byte) (g : Geometry) : (s.setGeometry v g).height = g.height := rfl
@[simp] theorem State.setGeometry_lineOffset0 (s : State) (v : Byte) (g : Geometry) : (s.setGeometry v g).lineOffset0 = g.row0 := rfl
@[simp] theorem State.setGeometry_lineOffset1 (s : State) (v : Byte) (g : Geometry) : (s.setGeometry v g).lineOffset1 = g.row1 := rfl
@[simp] theorem State.setGeometry_lineOffset2 (s : State) (v : Byte) (g : Geometry) : (s.setGeometry v g).lineOffset2 = g.row2 := rfl
@[simp] theorem State.setGeometry_lineOffset3 (s : State) (v : Byte) (g : Geometry) : (s.setGeometry v g).lineOffset3 = g.row3 := rfl
@[simp] theorem State.setGeometry_store (s : State) (v : Byte) (g : Geometry) : (s.setGeometry v g).store = s.store := rfl
@[simp] theorem State.setGeometry_handleHeld (s : State) (v : Byte) (g : Geometry) : (s.setGeometry v g).handleHeld = s.handleHeld := rfl
@[simp] theorem State.setGeometry_port (s : State) (v : Byte) (g : Geometry) : (s.setGeometry v g).port = s.port := rfl
@[simp] theorem State.setGeometry_trace (s : State) (v : Byte) (g : Geometry) : (s.setGeometry v g).trace = s.trace := rfl
@[simp] theorem State.setGeometry_response (s : State) (v : Byte) (g : Geometry) : (s.setGeometry v g).response = s.response := rfl
@[simp] theorem State.setGeometry_env (s : State) (v : Byte) (g : Geometry) : (s.setGeometry v g).env = s.env := rfl

-- State.setFlags
@[simp] theorem State.setFlags_params (s : State) (d c b l : Bool) : (s.setFlags d c b l).params = s.params := rfl
@[simp] theorem State.setFlags_lifecycle (s : State) (d c b l : Bool) : (s.setFlags d c b l).lifecycle = s.lifecycle := rfl
@[simp] theorem State.setFlags_busDesync (s : State) (d c b l : Bool) : (s.setFlags d c b l).busDesync = s.busDesync := rfl
@[simp] theorem State.setFlags_lastStatus (s : State) (d c b l : Bool) : (s.setFlags d c b l).lastStatus = s.lastStatus := rfl
@[simp] theorem State.setFlags_displayOn (s : State) (d c b l : Bool) : (s.setFlags d c b l).displayOn = d := rfl
@[simp] theorem State.setFlags_cursorOn (s : State) (d c b l : Bool) : (s.setFlags d c b l).cursorOn = c := rfl
@[simp] theorem State.setFlags_blinkOn (s : State) (d c b l : Bool) : (s.setFlags d c b l).blinkOn = b := rfl
@[simp] theorem State.setFlags_backlight (s : State) (d c b l : Bool) : (s.setFlags d c b l).backlight = l := rfl
@[simp] theorem State.setFlags_variant (s : State) (d c b l : Bool) : (s.setFlags d c b l).variant = s.variant := rfl
@[simp] theorem State.setFlags_width (s : State) (d c b l : Bool) : (s.setFlags d c b l).width = s.width := rfl
@[simp] theorem State.setFlags_height (s : State) (d c b l : Bool) : (s.setFlags d c b l).height = s.height := rfl
@[simp] theorem State.setFlags_lineOffset0 (s : State) (d c b l : Bool) : (s.setFlags d c b l).lineOffset0 = s.lineOffset0 := rfl
@[simp] theorem State.setFlags_lineOffset1 (s : State) (d c b l : Bool) : (s.setFlags d c b l).lineOffset1 = s.lineOffset1 := rfl
@[simp] theorem State.setFlags_lineOffset2 (s : State) (d c b l : Bool) : (s.setFlags d c b l).lineOffset2 = s.lineOffset2 := rfl
@[simp] theorem State.setFlags_lineOffset3 (s : State) (d c b l : Bool) : (s.setFlags d c b l).lineOffset3 = s.lineOffset3 := rfl
@[simp] theorem State.setFlags_store (s : State) (d c b l : Bool) : (s.setFlags d c b l).store = s.store := rfl
@[simp] theorem State.setFlags_handleHeld (s : State) (d c b l : Bool) : (s.setFlags d c b l).handleHeld = s.handleHeld := rfl
@[simp] theorem State.setFlags_port (s : State) (d c b l : Bool) : (s.setFlags d c b l).port = s.port := rfl
@[simp] theorem State.setFlags_trace (s : State) (d c b l : Bool) : (s.setFlags d c b l).trace = s.trace := rfl
@[simp] theorem State.setFlags_response (s : State) (d c b l : Bool) : (s.setFlags d c b l).response = s.response := rfl
@[simp] theorem State.setFlags_env (s : State) (d c b l : Bool) : (s.setFlags d c b l).env = s.env := rfl

-- State.setDisplay
@[simp] theorem State.setDisplay_params (s : State) (on : Bool) : (s.setDisplay on).params = s.params := rfl
@[simp] theorem State.setDisplay_lifecycle (s : State) (on : Bool) : (s.setDisplay on).lifecycle = s.lifecycle := rfl
@[simp] theorem State.setDisplay_busDesync (s : State) (on : Bool) : (s.setDisplay on).busDesync = s.busDesync := rfl
@[simp] theorem State.setDisplay_lastStatus (s : State) (on : Bool) : (s.setDisplay on).lastStatus = s.lastStatus := rfl
@[simp] theorem State.setDisplay_displayOn (s : State) (on : Bool) : (s.setDisplay on).displayOn = on := rfl
@[simp] theorem State.setDisplay_cursorOn (s : State) (on : Bool) : (s.setDisplay on).cursorOn = s.cursorOn := rfl
@[simp] theorem State.setDisplay_blinkOn (s : State) (on : Bool) : (s.setDisplay on).blinkOn = s.blinkOn := rfl
@[simp] theorem State.setDisplay_backlight (s : State) (on : Bool) : (s.setDisplay on).backlight = s.backlight := rfl
@[simp] theorem State.setDisplay_variant (s : State) (on : Bool) : (s.setDisplay on).variant = s.variant := rfl
@[simp] theorem State.setDisplay_width (s : State) (on : Bool) : (s.setDisplay on).width = s.width := rfl
@[simp] theorem State.setDisplay_height (s : State) (on : Bool) : (s.setDisplay on).height = s.height := rfl
@[simp] theorem State.setDisplay_lineOffset0 (s : State) (on : Bool) : (s.setDisplay on).lineOffset0 = s.lineOffset0 := rfl
@[simp] theorem State.setDisplay_lineOffset1 (s : State) (on : Bool) : (s.setDisplay on).lineOffset1 = s.lineOffset1 := rfl
@[simp] theorem State.setDisplay_lineOffset2 (s : State) (on : Bool) : (s.setDisplay on).lineOffset2 = s.lineOffset2 := rfl
@[simp] theorem State.setDisplay_lineOffset3 (s : State) (on : Bool) : (s.setDisplay on).lineOffset3 = s.lineOffset3 := rfl
@[simp] theorem State.setDisplay_store (s : State) (on : Bool) : (s.setDisplay on).store = s.store := rfl
@[simp] theorem State.setDisplay_handleHeld (s : State) (on : Bool) : (s.setDisplay on).handleHeld = s.handleHeld := rfl
@[simp] theorem State.setDisplay_port (s : State) (on : Bool) : (s.setDisplay on).port = s.port := rfl
@[simp] theorem State.setDisplay_trace (s : State) (on : Bool) : (s.setDisplay on).trace = s.trace := rfl
@[simp] theorem State.setDisplay_response (s : State) (on : Bool) : (s.setDisplay on).response = s.response := rfl
@[simp] theorem State.setDisplay_env (s : State) (on : Bool) : (s.setDisplay on).env = s.env := rfl

-- State.setCursor
@[simp] theorem State.setCursor_params (s : State) (v b : Bool) : (s.setCursor v b).params = s.params := rfl
@[simp] theorem State.setCursor_lifecycle (s : State) (v b : Bool) : (s.setCursor v b).lifecycle = s.lifecycle := rfl
@[simp] theorem State.setCursor_busDesync (s : State) (v b : Bool) : (s.setCursor v b).busDesync = s.busDesync := rfl
@[simp] theorem State.setCursor_lastStatus (s : State) (v b : Bool) : (s.setCursor v b).lastStatus = s.lastStatus := rfl
@[simp] theorem State.setCursor_displayOn (s : State) (v b : Bool) : (s.setCursor v b).displayOn = s.displayOn := rfl
@[simp] theorem State.setCursor_cursorOn (s : State) (v b : Bool) : (s.setCursor v b).cursorOn = v := rfl
@[simp] theorem State.setCursor_blinkOn (s : State) (v b : Bool) : (s.setCursor v b).blinkOn = b := rfl
@[simp] theorem State.setCursor_backlight (s : State) (v b : Bool) : (s.setCursor v b).backlight = s.backlight := rfl
@[simp] theorem State.setCursor_variant (s : State) (v b : Bool) : (s.setCursor v b).variant = s.variant := rfl
@[simp] theorem State.setCursor_width (s : State) (v b : Bool) : (s.setCursor v b).width = s.width := rfl
@[simp] theorem State.setCursor_height (s : State) (v b : Bool) : (s.setCursor v b).height = s.height := rfl
@[simp] theorem State.setCursor_lineOffset0 (s : State) (v b : Bool) : (s.setCursor v b).lineOffset0 = s.lineOffset0 := rfl
@[simp] theorem State.setCursor_lineOffset1 (s : State) (v b : Bool) : (s.setCursor v b).lineOffset1 = s.lineOffset1 := rfl
@[simp] theorem State.setCursor_lineOffset2 (s : State) (v b : Bool) : (s.setCursor v b).lineOffset2 = s.lineOffset2 := rfl
@[simp] theorem State.setCursor_lineOffset3 (s : State) (v b : Bool) : (s.setCursor v b).lineOffset3 = s.lineOffset3 := rfl
@[simp] theorem State.setCursor_store (s : State) (v b : Bool) : (s.setCursor v b).store = s.store := rfl
@[simp] theorem State.setCursor_handleHeld (s : State) (v b : Bool) : (s.setCursor v b).handleHeld = s.handleHeld := rfl
@[simp] theorem State.setCursor_port (s : State) (v b : Bool) : (s.setCursor v b).port = s.port := rfl
@[simp] theorem State.setCursor_trace (s : State) (v b : Bool) : (s.setCursor v b).trace = s.trace := rfl
@[simp] theorem State.setCursor_response (s : State) (v b : Bool) : (s.setCursor v b).response = s.response := rfl
@[simp] theorem State.setCursor_env (s : State) (v b : Bool) : (s.setCursor v b).env = s.env := rfl

-- State.setBacklight
@[simp] theorem State.setBacklight_params (s : State) (on : Bool) : (s.setBacklight on).params = s.params := rfl
@[simp] theorem State.setBacklight_lifecycle (s : State) (on : Bool) : (s.setBacklight on).lifecycle = s.lifecycle := rfl
@[simp] theorem State.setBacklight_busDesync (s : State) (on : Bool) : (s.setBacklight on).busDesync = s.busDesync := rfl
@[simp] theorem State.setBacklight_lastStatus (s : State) (on : Bool) : (s.setBacklight on).lastStatus = s.lastStatus := rfl
@[simp] theorem State.setBacklight_displayOn (s : State) (on : Bool) : (s.setBacklight on).displayOn = s.displayOn := rfl
@[simp] theorem State.setBacklight_cursorOn (s : State) (on : Bool) : (s.setBacklight on).cursorOn = s.cursorOn := rfl
@[simp] theorem State.setBacklight_blinkOn (s : State) (on : Bool) : (s.setBacklight on).blinkOn = s.blinkOn := rfl
@[simp] theorem State.setBacklight_backlight (s : State) (on : Bool) : (s.setBacklight on).backlight = on := rfl
@[simp] theorem State.setBacklight_variant (s : State) (on : Bool) : (s.setBacklight on).variant = s.variant := rfl
@[simp] theorem State.setBacklight_width (s : State) (on : Bool) : (s.setBacklight on).width = s.width := rfl
@[simp] theorem State.setBacklight_height (s : State) (on : Bool) : (s.setBacklight on).height = s.height := rfl
@[simp] theorem State.setBacklight_lineOffset0 (s : State) (on : Bool) : (s.setBacklight on).lineOffset0 = s.lineOffset0 := rfl
@[simp] theorem State.setBacklight_lineOffset1 (s : State) (on : Bool) : (s.setBacklight on).lineOffset1 = s.lineOffset1 := rfl
@[simp] theorem State.setBacklight_lineOffset2 (s : State) (on : Bool) : (s.setBacklight on).lineOffset2 = s.lineOffset2 := rfl
@[simp] theorem State.setBacklight_lineOffset3 (s : State) (on : Bool) : (s.setBacklight on).lineOffset3 = s.lineOffset3 := rfl
@[simp] theorem State.setBacklight_store (s : State) (on : Bool) : (s.setBacklight on).store = s.store := rfl
@[simp] theorem State.setBacklight_handleHeld (s : State) (on : Bool) : (s.setBacklight on).handleHeld = s.handleHeld := rfl
@[simp] theorem State.setBacklight_port (s : State) (on : Bool) : (s.setBacklight on).port = s.port := rfl
@[simp] theorem State.setBacklight_trace (s : State) (on : Bool) : (s.setBacklight on).trace = s.trace := rfl
@[simp] theorem State.setBacklight_response (s : State) (on : Bool) : (s.setBacklight on).response = s.response := rfl
@[simp] theorem State.setBacklight_env (s : State) (on : Bool) : (s.setBacklight on).env = s.env := rfl

-- State.setStore
@[simp] theorem State.setStore_params (s : State) (m : Memory) : (s.setStore m).params = s.params := rfl
@[simp] theorem State.setStore_lifecycle (s : State) (m : Memory) : (s.setStore m).lifecycle = s.lifecycle := rfl
@[simp] theorem State.setStore_busDesync (s : State) (m : Memory) : (s.setStore m).busDesync = s.busDesync := rfl
@[simp] theorem State.setStore_lastStatus (s : State) (m : Memory) : (s.setStore m).lastStatus = s.lastStatus := rfl
@[simp] theorem State.setStore_displayOn (s : State) (m : Memory) : (s.setStore m).displayOn = s.displayOn := rfl
@[simp] theorem State.setStore_cursorOn (s : State) (m : Memory) : (s.setStore m).cursorOn = s.cursorOn := rfl
@[simp] theorem State.setStore_blinkOn (s : State) (m : Memory) : (s.setStore m).blinkOn = s.blinkOn := rfl
@[simp] theorem State.setStore_backlight (s : State) (m : Memory) : (s.setStore m).backlight = s.backlight := rfl
@[simp] theorem State.setStore_variant (s : State) (m : Memory) : (s.setStore m).variant = s.variant := rfl
@[simp] theorem State.setStore_width (s : State) (m : Memory) : (s.setStore m).width = s.width := rfl
@[simp] theorem State.setStore_height (s : State) (m : Memory) : (s.setStore m).height = s.height := rfl
@[simp] theorem State.setStore_lineOffset0 (s : State) (m : Memory) : (s.setStore m).lineOffset0 = s.lineOffset0 := rfl
@[simp] theorem State.setStore_lineOffset1 (s : State) (m : Memory) : (s.setStore m).lineOffset1 = s.lineOffset1 := rfl
@[simp] theorem State.setStore_lineOffset2 (s : State) (m : Memory) : (s.setStore m).lineOffset2 = s.lineOffset2 := rfl
@[simp] theorem State.setStore_lineOffset3 (s : State) (m : Memory) : (s.setStore m).lineOffset3 = s.lineOffset3 := rfl
@[simp] theorem State.setStore_store (s : State) (m : Memory) : (s.setStore m).store = m := rfl
@[simp] theorem State.setStore_handleHeld (s : State) (m : Memory) : (s.setStore m).handleHeld = s.handleHeld := rfl
@[simp] theorem State.setStore_port (s : State) (m : Memory) : (s.setStore m).port = s.port := rfl
@[simp] theorem State.setStore_trace (s : State) (m : Memory) : (s.setStore m).trace = s.trace := rfl
@[simp] theorem State.setStore_response (s : State) (m : Memory) : (s.setStore m).response = s.response := rfl
@[simp] theorem State.setStore_env (s : State) (m : Memory) : (s.setStore m).env = s.env := rfl

-- State.releaseHandle
@[simp] theorem State.releaseHandle_params (s : State) : (s.releaseHandle).params = s.params := rfl
@[simp] theorem State.releaseHandle_lifecycle (s : State) : (s.releaseHandle).lifecycle = .released := rfl
@[simp] theorem State.releaseHandle_busDesync (s : State) : (s.releaseHandle).busDesync = s.busDesync := rfl
@[simp] theorem State.releaseHandle_lastStatus (s : State) : (s.releaseHandle).lastStatus = s.lastStatus := rfl
@[simp] theorem State.releaseHandle_displayOn (s : State) : (s.releaseHandle).displayOn = s.displayOn := rfl
@[simp] theorem State.releaseHandle_cursorOn (s : State) : (s.releaseHandle).cursorOn = s.cursorOn := rfl
@[simp] theorem State.releaseHandle_blinkOn (s : State) : (s.releaseHandle).blinkOn = s.blinkOn := rfl
@[simp] theorem State.releaseHandle_backlight (s : State) : (s.releaseHandle).backlight = s.backlight := rfl
@[simp] theorem State.releaseHandle_variant (s : State) : (s.releaseHandle).variant = s.variant := rfl
@[simp] theorem State.releaseHandle_width (s : State) : (s.releaseHandle).width = s.width := rfl
@[simp] theorem State.releaseHandle_height (s : State) : (s.releaseHandle).height = s.height := rfl
@[simp] theorem State.releaseHandle_lineOffset0 (s : State) : (s.releaseHandle).lineOffset0 = s.lineOffset0 := rfl
@[simp] theorem State.releaseHandle_lineOffset1 (s : State) : (s.releaseHandle).lineOffset1 = s.lineOffset1 := rfl
@[simp] theorem State.releaseHandle_lineOffset2 (s : State) : (s.releaseHandle).lineOffset2 = s.lineOffset2 := rfl
@[simp] theorem State.releaseHandle_lineOffset3 (s : State) : (s.releaseHandle).lineOffset3 = s.lineOffset3 := rfl
@[simp] theorem State.releaseHandle_store (s : State) : (s.releaseHandle).store = s.store := rfl
@[simp] theorem State.releaseHandle_handleHeld (s : State) : (s.releaseHandle).handleHeld = false := rfl
@[simp] theorem State.releaseHandle_port (s : State) : (s.releaseHandle).port = s.port := rfl
@[simp] theorem State.releaseHandle_trace (s : State) : (s.releaseHandle).trace = s.trace ++ [.release] := rfl
@[simp] theorem State.releaseHandle_response (s : State) : (s.releaseHandle).response = s.response := rfl
@[simp] theorem State.releaseHandle_env (s : State) : (s.releaseHandle).env = s.env := rfl

-- respond
@[simp] theorem respond_params (s : State) (st : Status) (data : List Byte) : (respond st data s).params = s.params := rfl
@[simp] theorem respond_lifecycle (s : State) (st : Status) (data : List Byte) : (respond st data s).lifecycle = s.lifecycle := rfl
@[simp] theorem respond_busDesync (s : State) (st : Status) (data : List Byte) : (respond st data s).busDesync = s.busDesync := rfl
@[simp] theorem respond_lastStatus (s : State) (st : Status) (data : List Byte) : (respond st data s).lastStatus = st.code := rfl
@[simp] theorem respond_displayOn (s : State) (st : Status) (data : List Byte) : (respond st data s).displayOn = s.displayOn := rfl
@[simp] theorem respond_cursorOn (s : State) (st : Status) (data : List Byte) : (respond st data s).cursorOn = s.cursorOn := rfl
@[simp] theorem respond_blinkOn (s : State) (st : Status) (data : List Byte) : (respond st data s).blinkOn = s.blinkOn := rfl
@[simp] theorem respond_backlight (s : State) (st : Status) (data : List Byte) : (respond st data s).backlight = s.backlight := rfl
@[simp] theorem respond_variant (s : State) (st : Status) (data : List Byte) : (respond st data s).variant = s.variant := rfl
@[simp] theorem respond_width (s : State) (st : Status) (data : List Byte) : (respond st data s).width = s.width := rfl
@[simp] theorem respond_height (s : State) (st : Status) (data : List Byte) : (respond st data s).height = s.height := rfl
@[simp] theorem respond_lineOffset0 (s : State) (st : Status) (data : List Byte) : (respond st data s).lineOffset0 = s.lineOffset0 := rfl
@[simp] theorem respond_lineOffset1 (s : State) (st : Status) (data : List Byte) : (respond st data s).lineOffset1 = s.lineOffset1 := rfl
@[simp] theorem respond_lineOffset2 (s : State) (st : Status) (data : List Byte) : (respond st data s).lineOffset2 = s.lineOffset2 := rfl
@[simp] theorem respond_lineOffset3 (s : State) (st : Status) (data : List Byte) : (respond st data s).lineOffset3 = s.lineOffset3 := rfl
@[simp] theorem respond_store (s : State) (st : Status) (data : List Byte) : (respond st data s).store = s.store := rfl
@[simp] theorem respond_handleHeld (s : State) (st : Status) (data : List Byte) : (respond st data s).handleHeld = s.handleHeld := rfl
@[simp] theorem respond_port (s : State) (st : Status) (data : List Byte) : (respond st data s).port = s.port := rfl
@[simp] theorem respond_trace (s : State) (st : Status) (data : List Byte) : (respond st data s).trace = s.trace := rfl
@[simp] theorem respond_response (s : State) (st : Status) (data : List Byte) : (respond st data s).response = some { status := st, cause := none, data := data } := rfl
@[simp] theorem respond_env (s : State) (st : Status) (data : List Byte) : (respond st data s).env = s.env := rfl

-- respondReadReg
@[simp] theorem respondReadReg_params (s : State) (st : Status) (data : List Byte) : (respondReadReg st data s).params = s.params := rfl
@[simp] theorem respondReadReg_lifecycle (s : State) (st : Status) (data : List Byte) : (respondReadReg st data s).lifecycle = s.lifecycle := rfl
@[simp] theorem respondReadReg_busDesync (s : State) (st : Status) (data : List Byte) : (respondReadReg st data s).busDesync = s.busDesync := rfl
@[simp] theorem respondReadReg_lastStatus (s : State) (st : Status) (data : List Byte) : (respondReadReg st data s).lastStatus = s.lastStatus := rfl
@[simp] theorem respondReadReg_displayOn (s : State) (st : Status) (data : List Byte) : (respondReadReg st data s).displayOn = s.displayOn := rfl
@[simp] theorem respondReadReg_cursorOn (s : State) (st : Status) (data : List Byte) : (respondReadReg st data s).cursorOn = s.cursorOn := rfl
@[simp] theorem respondReadReg_blinkOn (s : State) (st : Status) (data : List Byte) : (respondReadReg st data s).blinkOn = s.blinkOn := rfl
@[simp] theorem respondReadReg_backlight (s : State) (st : Status) (data : List Byte) : (respondReadReg st data s).backlight = s.backlight := rfl
@[simp] theorem respondReadReg_variant (s : State) (st : Status) (data : List Byte) : (respondReadReg st data s).variant = s.variant := rfl
@[simp] theorem respondReadReg_width (s : State) (st : Status) (data : List Byte) : (respondReadReg st data s).width = s.width := rfl
@[simp] theorem respondReadReg_height (s : State) (st : Status) (data : List Byte) : (respondReadReg st data s).height = s.height := rfl
@[simp] theorem respondReadReg_lineOffset0 (s : State) (st : Status) (data : List Byte) : (respondReadReg st data s).lineOffset0 = s.lineOffset0 := rfl
@[simp] theorem respondReadReg_lineOffset1 (s : State) (st : Status) (data : List Byte) : (respondReadReg st data s).lineOffset1 = s.lineOffset1 := rfl
@[simp] theorem respondReadReg_lineOffset2 (s : State) (st : Status) (data : List Byte) : (respondReadReg st data s).lineOffset2 = s.lineOffset2 := rfl
@[simp] theorem respondReadReg_lineOffset3 (s : State) (st : Status) (data : List Byte) : (respondReadReg st data s).lineOffset3 = s.lineOffset3 := rfl
@[simp] theorem respondReadReg_store (s : State) (st : Status) (data : List Byte) : (respondReadReg st data s).store = s.store := rfl
@[simp] theorem respondReadReg_handleHeld (s : State) (st : Status) (data : List Byte) : (respondReadReg st data s).handleHeld = s.handleHeld := rfl
@[simp] theorem respondReadReg_port (s : State) (st : Status) (data : List Byte) : (respondReadReg st data s).port = s.port := rfl
@[simp] theorem respondReadReg_trace (s : State) (st : Status) (data : List Byte) : (respondReadReg st data s).trace = s.trace := rfl
@[simp] theorem respondReadReg_response (s : State) (st : Status) (data : List Byte) : (respondReadReg st data s).response = some { status := st, cause := none, data := data } := rfl
@[simp] theorem respondReadReg_env (s : State) (st : Status) (data : List Byte) : (respondReadReg st data s).env = s.env := rfl

-- raise
@[simp] theorem raise_params (s : State) (e : Status) : (raise e s).params = s.params := rfl
@[simp] theorem raise_lifecycle (s : State) (e : Status) : (raise e s).lifecycle = s.lifecycle := rfl
@[simp] theorem raise_busDesync (s : State) (e : Status) : (raise e s).busDesync = s.busDesync := rfl
@[simp] theorem raise_lastStatus (s : State) (e : Status) : (raise e s).lastStatus = e.code := rfl
@[simp] theorem raise_displayOn (s : State) (e : Status) : (raise e s).displayOn = s.displayOn := rfl
@[simp] theorem raise_cursorOn (s : State) (e : Status) : (raise e s).cursorOn = s.cursorOn := rfl
@[simp] theorem raise_blinkOn (s : State) (e : Status) : (raise e s).blinkOn = s.blinkOn := rfl
@[simp] theorem raise_backlight (s : State) (e : Status) : (raise e s).backlight = s.backlight := rfl
@[simp] theorem raise_variant (s : State) (e : Status) : (raise e s).variant = s.variant := rfl
@[simp] theorem raise_width (s : State) (e : Status) : (raise e s).width = s.width := rfl
@[simp] theorem raise_height (s : State) (e : Status) : (raise e s).height = s.height := rfl
@[simp] theorem raise_lineOffset0 (s : State) (e : Status) : (raise e s).lineOffset0 = s.lineOffset0 := rfl
@[simp] theorem raise_lineOffset1 (s : State) (e : Status) : (raise e s).lineOffset1 = s.lineOffset1 := rfl
@[simp] theorem raise_lineOffset2 (s : State) (e : Status) : (raise e s).lineOffset2 = s.lineOffset2 := rfl
@[simp] theorem raise_lineOffset3 (s : State) (e : Status) : (raise e s).lineOffset3 = s.lineOffset3 := rfl
@[simp] theorem raise_store (s : State) (e : Status) : (raise e s).store = s.store := rfl
@[simp] theorem raise_handleHeld (s : State) (e : Status) : (raise e s).handleHeld = s.handleHeld := rfl
@[simp] theorem raise_port (s : State) (e : Status) : (raise e s).port = s.port := rfl
@[simp] theorem raise_trace (s : State) (e : Status) : (raise e s).trace = s.trace := rfl
@[simp] theorem raise_response (s : State) (e : Status) : (raise e s).response = some { status := e, cause := none, data := [] } := rfl
@[simp] theorem raise_env (s : State) (e : Status) : (raise e s).env = s.env := rfl

-- raiseTransport
@[simp] theorem raiseTransport_params (s : State) (c : Cause) : (raiseTransport c s).params = s.params := rfl
@[simp] theorem raiseTransport_lifecycle (s : State) (c : Cause) : (raiseTransport c s).lifecycle = s.lifecycle := rfl
@[simp] theorem raiseTransport_busDesync (s : State) (c : Cause) : (raiseTransport c s).busDesync = true := rfl
@[simp] theorem raiseTransport_lastStatus (s : State) (c : Cause) : (raiseTransport c s).lastStatus = Status.transport.code := rfl
@[simp] theorem raiseTransport_displayOn (s : State) (c : Cause) : (raiseTransport c s).displayOn = s.displayOn := rfl
@[simp] theorem raiseTransport_cursorOn (s : State) (c : Cause) : (raiseTransport c s).cursorOn = s.cursorOn := rfl
@[simp] theorem raiseTransport_blinkOn (s : State) (c : Cause) : (raiseTransport c s).blinkOn = s.blinkOn := rfl
@[simp] theorem raiseTransport_backlight (s : State) (c : Cause) : (raiseTransport c s).backlight = s.backlight := rfl
@[simp] theorem raiseTransport_variant (s : State) (c : Cause) : (raiseTransport c s).variant = s.variant := rfl
@[simp] theorem raiseTransport_width (s : State) (c : Cause) : (raiseTransport c s).width = s.width := rfl
@[simp] theorem raiseTransport_height (s : State) (c : Cause) : (raiseTransport c s).height = s.height := rfl
@[simp] theorem raiseTransport_lineOffset0 (s : State) (c : Cause) : (raiseTransport c s).lineOffset0 = s.lineOffset0 := rfl
@[simp] theorem raiseTransport_lineOffset1 (s : State) (c : Cause) : (raiseTransport c s).lineOffset1 = s.lineOffset1 := rfl
@[simp] theorem raiseTransport_lineOffset2 (s : State) (c : Cause) : (raiseTransport c s).lineOffset2 = s.lineOffset2 := rfl
@[simp] theorem raiseTransport_lineOffset3 (s : State) (c : Cause) : (raiseTransport c s).lineOffset3 = s.lineOffset3 := rfl
@[simp] theorem raiseTransport_store (s : State) (c : Cause) : (raiseTransport c s).store = s.store := rfl
@[simp] theorem raiseTransport_handleHeld (s : State) (c : Cause) : (raiseTransport c s).handleHeld = s.handleHeld := rfl
@[simp] theorem raiseTransport_port (s : State) (c : Cause) : (raiseTransport c s).port = s.port := rfl
@[simp] theorem raiseTransport_trace (s : State) (c : Cause) : (raiseTransport c s).trace = s.trace := rfl
@[simp] theorem raiseTransport_response (s : State) (c : Cause) : (raiseTransport c s).response = some { status := .transport, cause := some c, data := [] } := rfl
@[simp] theorem raiseTransport_env (s : State) (c : Cause) : (raiseTransport c s).env = s.env := rfl

end Sys2Proof.Machine
end

