-- ==== Sys2Proof/Laws/Emit.lean ====
section
/-! SUPPORT. What the environment's operations and emitting a list of events can do, said once. -/

namespace Sys2Proof.Machine

-- the environment

theorem Env.takeAnswer_fst (e : Env) : e.takeAnswer.1 = e.answer 0 := by
  rcases e with ⟨_ | ⟨a, as⟩, d, w⟩ <;> simp [Env.takeAnswer, Env.answer]

theorem Env.takeAnswer_snd (e : Env) : e.takeAnswer.2 = e.after 1 0 := by
  rcases e with ⟨_ | ⟨a, as⟩, d, w⟩ <;> simp [Env.takeAnswer, Env.after]

@[simp] theorem Env.after_zero (e : Env) : e.after 0 0 = e := by
  rcases e with ⟨as, d, w⟩; simp [Env.after]

theorem Env.after_after (e : Env) (n w n' w' : Nat) : (e.after n w).after n' w' = e.after (n + n') (w + w') := by
  rcases e with ⟨as, d, o⟩
  simp only [Env.after, List.drop_drop, List.length_drop, Option.map_map, Env.mk.injEq, true_and]
  refine ⟨by omega, ?_⟩
  cases o <;> simp [Function.comp_def, Nat.sub_sub]

/-- The answers that come after `n` transactions are the later answers. -/
theorem Env.answer_after (e : Env) (n w k : Nat) : (e.after n w).answer k = e.answer (n + k) := by
  rcases e with ⟨as, d, o⟩
  simp only [Env.answer, Env.after, List.getElem?_drop, List.length_drop]
  cases h : as[n + k]? with
  | some a => rfl
  | none =>
    have := List.getElem?_eq_none_iff.mp h
    simp only
    congr 1
    omega

theorem Env.takeWait_serves (e : Env) (w : Nat) (h : e.servesWaits (w + 1)) : e.takeWait = some (e.after 0 1) := by
  rcases e with ⟨as, d, _ | _ | m⟩
  · simp [Env.takeWait, Env.after]
  · simp [Env.servesWaits] at h
  · simp [Env.takeWait, Env.after]

theorem Env.takeWait_cases (e : Env) : e.takeWait = some (e.after 0 1) ∨ (e.takeWait = none ∧ e.waits = some 0) := by
  rcases e with ⟨as, d, _ | _ | m⟩ <;> simp [Env.takeWait, Env.after]

theorem Env.acksBus_after (e : Env) (n w k : Nat) (h : e.acksBus (n + k)) : (e.after n w).acksBus k := fun j hj => by
  rw [Env.answer_after]; exact h _ (by omega)

theorem Env.servesWaits_after (e : Env) (n w k : Nat) (h : e.servesWaits (w + k)) : (e.after n w).servesWaits k := by
  rcases e with ⟨as, d, _ | m⟩
  · simp [Env.servesWaits, Env.after]
  · simp only [Env.servesWaits, Env.after, Option.map_some, Option.getD_some] at h ⊢
    omega

theorem Env.acksBus_mono (e : Env) {m n : Nat} (h : e.acksBus n) (hm : m ≤ n) : e.acksBus m := fun k hk => h k (by omega)

theorem Env.servesWaits_mono (e : Env) {m n : Nat} (h : e.servesWaits n) (hm : m ≤ n) : e.servesWaits m := by
  rcases e with ⟨as, d, _ | w⟩
  · simp [Env.servesWaits]
  · simp only [Env.servesWaits, Option.getD_some] at h ⊢
    omega

-- counting events

@[simp] theorem busCount_nil : busCount [] = 0 := rfl
@[simp] theorem waitCount_nil : waitCount [] = 0 := rfl
@[simp] theorem releaseCount_nil : releaseCount [] = 0 := rfl
@[simp] theorem busCount_bus (a : BitVec 7) (bs : List Byte) (evs : List Event) :
    busCount (.bus a bs :: evs) = busCount evs + 1 := by simp [busCount, List.countP_cons, Event.isBus]
@[simp] theorem busCount_wait (k : WaitKind) (t : Nat) (evs : List Event) : busCount (.wait k t :: evs) = busCount evs := by
  simp [busCount, Event.isBus]
@[simp] theorem busCount_release (evs : List Event) : busCount (.release :: evs) = busCount evs := by
  simp [busCount, Event.isBus]
@[simp] theorem waitCount_bus (a : BitVec 7) (bs : List Byte) (evs : List Event) : waitCount (.bus a bs :: evs) = waitCount evs := by
  simp [waitCount, Event.isWait]
@[simp] theorem waitCount_wait (k : WaitKind) (t : Nat) (evs : List Event) : waitCount (.wait k t :: evs) = waitCount evs + 1 := by
  simp [waitCount, List.countP_cons, Event.isWait]
@[simp] theorem waitCount_release (evs : List Event) : waitCount (.release :: evs) = waitCount evs := by
  simp [waitCount, Event.isWait]
@[simp] theorem releaseCount_bus (a : BitVec 7) (bs : List Byte) (evs : List Event) :
    releaseCount (.bus a bs :: evs) = releaseCount evs := by simp [releaseCount, Event.isRelease]
@[simp] theorem releaseCount_wait (k : WaitKind) (t : Nat) (evs : List Event) :
    releaseCount (.wait k t :: evs) = releaseCount evs := by simp [releaseCount, Event.isRelease]
@[simp] theorem releaseCount_release (evs : List Event) : releaseCount (.release :: evs) = releaseCount evs + 1 := by
  simp [releaseCount, List.countP_cons, Event.isRelease]
@[simp] theorem busCount_append (xs ys : List Event) : busCount (xs ++ ys) = busCount xs + busCount ys := by simp [busCount]
@[simp] theorem waitCount_append (xs ys : List Event) : waitCount (xs ++ ys) = waitCount xs + waitCount ys := by simp [waitCount]
@[simp] theorem releaseCount_append (xs ys : List Event) : releaseCount (xs ++ ys) = releaseCount xs + releaseCount ys := by
  simp [releaseCount]

-- emitting

@[simp] theorem State.sent_nil (s : State) : s.sent [] = s := by simp [State.sent]

theorem State.sent_sent (s : State) (xs ys : List Event) : (s.sent xs).sent ys = s.sent (xs ++ ys) := by
  simp [State.sent, Env.after_after, List.append_assoc]

/-- If the environment lets all of the events through, all are emitted. -/
theorem emit_done (evs : List Event) (s : State) (h : s.letsThrough evs) : emit evs s = .done (s.sent evs) := by
  induction evs generalizing s with
  | nil => simp [emit]
  | cons ev evs ih =>
    obtain ⟨hb, hw⟩ := h
    cases ev with
    | bus a bs =>
      have h0 : s.env.takeAnswer = (.ok, s.env.after 1 0) := by
        rw [← Env.takeAnswer_snd, ← hb 0 (by simp), ← Env.takeAnswer_fst]
      simp only [emit, h0]
      rw [ih]
      · simp [State.sent, State.logEvent, Env.after_after, Nat.add_comm]
      · exact ⟨Env.acksBus_after _ 1 0 _ (by simpa [Nat.add_comm] using hb),
               Env.servesWaits_after _ 1 0 _ (by simpa using hw)⟩
    | wait k t =>
      have h0 : s.env.takeWait = some (s.env.after 0 1) := Env.takeWait_serves _ _ (by simpa using hw)
      simp only [emit, h0]
      rw [ih]
      · simp [State.sent, State.logEvent, Env.after_after, Nat.add_comm]
      · exact ⟨Env.acksBus_after _ 0 1 _ (by simpa using hb),
               Env.servesWaits_after _ 0 1 _ (by simpa [Nat.add_comm] using hw)⟩
    | release =>
      simp only [emit]
      rw [ih]
      · simp [State.sent, State.logEvent]
      · exact ⟨by simpa using hb, by simpa using hw⟩

/-- Everything emitting can do when it is not stuck: all of the events, or the events up to and with the first transaction the transport
answers `fail`. -/
theorem emit_cases (evs : List Event) (s : State) :
    (emit evs s = .done (s.sent evs) ∧ s.env.acksBus (busCount evs)) ∨
    (∃ k c, k < busCount evs ∧ s.env.acksBus k ∧ s.env.answer k = .fail c ∧
      emit evs s = .failed c (s.sent (cutAfterBus k evs))) ∨
    (∃ f, emit evs s = .stuck f) := by
  induction evs generalizing s with
  | nil => exact .inl ⟨by simp [emit], fun k hk => by simp at hk⟩
  | cons ev evs ih =>
    cases ev with
    | bus a bs =>
      have hs := Env.takeAnswer_snd s.env
      have hf := Env.takeAnswer_fst s.env
      rcases ht : s.env.takeAnswer with ⟨ans, e⟩
      rw [ht] at hs hf
      simp only at hs hf
      subst hs
      cases ans with
      | ok =>
        have hemit : emit (.bus a bs :: evs) s = emit evs (s.logEvent (.bus a bs) (s.env.after 1 0)) := by
          simp [emit, ht]
        have hsent : ∀ l, (s.logEvent (.bus a bs) (s.env.after 1 0)).sent l = s.sent (.bus a bs :: l) := fun l => by
          simp [State.sent, State.logEvent, Env.after_after, Nat.add_comm]
        have hack : ∀ n, (s.logEvent (.bus a bs) (s.env.after 1 0)).env.acksBus n → s.env.acksBus (n + 1) := fun n h j hj => by
          cases j with
          | zero => exact hf.symm
          | succ j =>
            have := h j (by omega)
            rw [State.logEvent_env, Env.answer_after, Nat.add_comm] at this
            exact this
        rcases ih (s.logEvent (.bus a bs) (s.env.after 1 0)) with ⟨h, h'⟩ | ⟨k, c, hk, hpre, hans, h⟩ | ⟨f, h⟩
        · exact .inl ⟨by rw [hemit, h, hsent], by simpa using hack _ h'⟩
        · refine .inr (.inl ⟨k + 1, c, by simpa using hk, hack _ hpre, ?_, ?_⟩)
          · rw [State.logEvent_env, Env.answer_after, Nat.add_comm] at hans
            exact hans
          · rw [hemit, h, hsent]; rfl
        · exact .inr (.inr ⟨f, by rw [hemit, h]⟩)
      | fail c =>
        refine .inr (.inl ⟨0, c, by simp, fun k hk => by omega, hf.symm, ?_⟩)
        simp [emit, ht, cutAfterBus, State.sent, State.logEvent]
      | never => exact .inr (.inr ⟨.transportSilent, by simp [emit, ht]⟩)
    | wait k t =>
      rcases Env.takeWait_cases s.env with ht | ⟨ht, _⟩
      · have hemit : emit (.wait k t :: evs) s = emit evs (s.logEvent (.wait k t) (s.env.after 0 1)) := by
          simp [emit, ht]
        have hsent : ∀ l, (s.logEvent (.wait k t) (s.env.after 0 1)).sent l = s.sent (.wait k t :: l) := fun l => by
          simp [State.sent, State.logEvent, Env.after_after, Nat.add_comm]
        have hans : ∀ n, (s.logEvent (.wait k t) (s.env.after 0 1)).env.answer n = s.env.answer n := fun n => by
          rw [State.logEvent_env, Env.answer_after, Nat.zero_add]
        rcases ih (s.logEvent (.wait k t) (s.env.after 0 1)) with ⟨h, h'⟩ | ⟨n, c, hk, hpre, ha, h⟩ | ⟨f, h⟩
        · exact .inl ⟨by rw [hemit, h, hsent], fun j hj => by rw [← hans]; exact h' j (by simpa using hj)⟩
        · refine .inr (.inl ⟨n, c, by simpa using hk, fun j hj => by rw [← hans]; exact hpre j hj, by rw [← hans]; exact ha, ?_⟩)
          rw [hemit, h, hsent]; simp [cutAfterBus]
        · exact .inr (.inr ⟨f, by rw [hemit, h]⟩)
      · exact .inr (.inr ⟨.waitUnserved, by simp [emit, ht]⟩)
    | release =>
      have hemit : emit (.release :: evs) s = emit evs (s.logEvent .release s.env) := by simp [emit]
      have hsent : ∀ l, (s.logEvent .release s.env).sent l = s.sent (.release :: l) := fun l => by
        simp [State.sent, State.logEvent]
      rcases ih (s.logEvent .release s.env) with ⟨h, h'⟩ | ⟨n, c, hk, hpre, ha, h⟩ | ⟨f, h⟩
      · exact .inl ⟨by rw [hemit, h, hsent], fun j hj => h' j (by simpa using hj)⟩
      · refine .inr (.inl ⟨n, c, by simpa using hk, hpre, ha, ?_⟩)
        rw [hemit, h, hsent]; simp [cutAfterBus]
      · exact .inr (.inr ⟨f, by rw [hemit, h]⟩)

/-- If the environment lets all of the events through, the request goes on after them. -/
theorem traffic_done (onFail : Cause → State → State) (evs : List Event) (s : State) (next : State → Result)
    (h : s.letsThrough evs) : traffic onFail evs s next = next (s.sent evs) := by
  simp [traffic, emit_done evs s h]

/-- Everything traffic can do when it answers a next state. -/
theorem traffic_next (onFail : Cause → State → State) (evs : List Event) (s : State) (next : State → Result) (t : State)
    (h : traffic onFail evs s next = .next t) :
    next (s.sent evs) = .next t ∨
    ∃ k c, k < busCount evs ∧ s.env.acksBus k ∧ s.env.answer k = .fail c ∧ t = onFail c (s.sent (cutAfterBus k evs)) := by
  rcases emit_cases evs s with ⟨he, _⟩ | ⟨k, c, hk, hpre, ha, he⟩ | ⟨f, he⟩
  · exact .inl (by simpa [traffic, he] using h)
  · refine .inr ⟨k, c, hk, hpre, ha, ?_⟩
    simp only [traffic, he, Host.Outcome.next.injEq] at h
    exact h.symm
  · simp [traffic, he] at h

/-- What is left of a trace when a transaction fails is an initial part of it. -/
theorem cutAfterBus_sublist (k : Nat) (evs : List Event) : (cutAfterBus k evs).Sublist evs := by
  induction evs generalizing k with
  | nil => cases k <;> simp [cutAfterBus]
  | cons ev evs ih =>
    cases ev <;> cases k <;> simp [cutAfterBus, ih]

theorem mem_of_mem_cutAfterBus {k : Nat} {evs : List Event} {e : Event} (h : e ∈ cutAfterBus k evs) : e ∈ evs :=
  (cutAfterBus_sublist k evs).mem h

/-- Up to and with transaction `k` there are `k + 1` transactions. -/
theorem busCount_cutAfterBus (k : Nat) (evs : List Event) (h : k < busCount evs) : busCount (cutAfterBus k evs) = k + 1 := by
  induction evs generalizing k with
  | nil => simp at h
  | cons ev evs ih =>
    cases ev with
    | bus a bs =>
      cases k with
      | zero => simp [cutAfterBus]
      | succ k => simp only [cutAfterBus, busCount_bus, ih k (by simpa using h)]
    | wait w t => simp only [cutAfterBus, busCount_wait]; exact ih k (by simpa using h)
    | release => simp only [cutAfterBus, busCount_release]; exact ih k (by simpa using h)

/-- The cut of a trace of two parts falls in the first part, or keeps the first part whole. -/
theorem cutAfterBus_append (k : Nat) (xs ys : List Event) :
    cutAfterBus k (xs ++ ys) = if k < busCount xs then cutAfterBus k xs else xs ++ cutAfterBus (k - busCount xs) ys := by
  induction xs generalizing k with
  | nil => simp
  | cons ev xs ih =>
    cases ev with
    | bus a bs =>
      cases k with
      | zero => simp [cutAfterBus]
      | succ k =>
        simp only [List.cons_append, cutAfterBus, ih, busCount_bus, Nat.add_lt_add_iff_right, Nat.add_sub_add_right]
        split <;> rfl
    | wait w t => simp only [List.cons_append, cutAfterBus, ih, busCount_wait]; split <;> rfl
    | release => simp only [List.cons_append, cutAfterBus, ih, busCount_release]; split <;> rfl

/-- Emitting two parts is emitting the first, then, if all of it was emitted, the second. -/
theorem emit_append (xs ys : List Event) (s : State) :
    emit (xs ++ ys) s = match emit xs s with
      | .done t     => emit ys t
      | .failed c t => .failed c t
      | .stuck f    => .stuck f := by
  induction xs generalizing s with
  | nil => simp [emit]
  | cons ev xs ih =>
    cases ev with
    | bus a bs =>
      simp only [List.cons_append, emit]
      split <;> simp_all
    | wait w t =>
      simp only [List.cons_append, emit]
      split <;> simp_all
    | release => simp only [List.cons_append, emit, ih]

/-- The state after one acknowledged transaction. -/
theorem emit_bus_ok (a : BitVec 7) (bs : List Byte) (evs : List Event) (s : State) (h : s.env.answer 0 = .ok) :
    emit (.bus a bs :: evs) s = emit evs (s.sent [.bus a bs]) := by
  have h0 : s.env.takeAnswer = (.ok, s.env.after 1 0) := by rw [← Env.takeAnswer_snd, ← h, ← Env.takeAnswer_fst]
  simp [emit, h0, State.sent, State.logEvent]

/-- The state after one served wait. -/
theorem emit_wait_ok (w : WaitKind) (t : Nat) (evs : List Event) (s : State) (h : s.env.takeWait = some (s.env.after 0 1)) :
    emit (.wait w t :: evs) s = emit evs (s.sent [.wait w t]) := by
  simp [emit, h, State.sent, State.logEvent]

/-- If the host serves the waits, emitting stops where the transport first does not acknowledge. -/
theorem emit_notAcknowledged (k : Nat) (evs : List Event) (s : State) (hk : k < busCount evs) (hpre : s.env.acksBus k)
    (hw : s.env.servesWaits (waitCount evs)) :
    (∀ c, s.env.answer k = .fail c → emit evs s = .failed c (s.sent (cutAfterBus k evs))) ∧
    (s.env.answer k = .never → emit evs s = .stuck .transportSilent) := by
  induction evs generalizing k s with
  | nil => simp at hk
  | cons ev evs ih =>
    cases ev with
    | bus a bs =>
      cases k with
      | zero =>
        refine ⟨fun c hc => ?_, fun hc => ?_⟩
        · have h0 : s.env.takeAnswer = (.fail c, s.env.after 1 0) := by rw [← Env.takeAnswer_snd, ← hc, ← Env.takeAnswer_fst]
          simp [emit, h0, cutAfterBus, State.sent, State.logEvent]
        · have h0 : s.env.takeAnswer = (.never, s.env.after 1 0) := by rw [← Env.takeAnswer_snd, ← hc, ← Env.takeAnswer_fst]
          simp [emit, h0]
      | succ k =>
        rw [emit_bus_ok _ _ _ _ (hpre 0 (by omega))]
        have := ih k (s.sent [.bus a bs]) (by simpa using hk) (Env.acksBus_after _ 1 0 _ (by simpa [Nat.add_comm] using hpre))
          (Env.servesWaits_after _ 1 0 _ (by simpa using hw))
        rw [State.sent_env, Env.answer_after] at this
        simpa [State.sent_sent, cutAfterBus, Nat.add_comm] using this
    | wait w t =>
      rw [emit_wait_ok _ _ _ _ (Env.takeWait_serves _ _ (by simpa using hw))]
      have := ih k (s.sent [.wait w t]) (by simpa using hk) (Env.acksBus_after _ 0 1 _ (by simpa using hpre))
        (Env.servesWaits_after _ 0 1 _ (by simpa [Nat.add_comm] using hw))
      rw [State.sent_env, Env.answer_after] at this
      simpa [State.sent_sent, cutAfterBus] using this
    | release =>
      have hs : emit (.release :: evs) s = emit evs (s.sent [.release]) := by simp [emit, State.sent, State.logEvent]
      rw [hs]
      have := ih k (s.sent [.release]) (by simpa using hk) (Env.acksBus_after _ 0 0 _ (by simpa using hpre))
        (Env.servesWaits_after _ 0 0 _ (by simpa using hw))
      rw [State.sent_env, Env.answer_after] at this
      simpa [State.sent_sent, cutAfterBus] using this

/-- If the transport acknowledges everything and the host serves too few waits, emitting is stuck at a wait. -/
theorem emit_unserved (evs : List Event) (s : State) (m : Nat) (hm : s.env.waits = some m) (hlt : m < waitCount evs)
    (hb : s.env.acksBus (busCount evs)) : emit evs s = .stuck .waitUnserved := by
  induction evs generalizing s m with
  | nil => simp at hlt
  | cons ev evs ih =>
    cases ev with
    | bus a bs =>
      rw [emit_bus_ok _ _ _ _ (hb 0 (by simp))]
      exact ih _ m (by simp [Env.after, hm]) (by simpa using hlt) (Env.acksBus_after _ 1 0 _ (by simpa [Nat.add_comm] using hb))
    | wait w t =>
      cases m with
      | zero => simp [emit, Env.takeWait, hm]
      | succ m =>
        rw [emit_wait_ok _ _ _ _ (by simp [Env.takeWait, Env.after, hm])]
        exact ih _ m (by simp [Env.after, hm]) (by simpa using hlt) (Env.acksBus_after _ 0 1 _ (by simpa using hb))
    | release =>
      have hs : emit (.release :: evs) s = emit evs (s.sent [.release]) := by simp [emit, State.sent, State.logEvent]
      rw [hs]
      exact ih _ m (by simp [Env.after, hm]) (by simpa using hlt) (Env.acksBus_after _ 0 0 _ (by simpa using hb))

/-- All of the events are emitted exactly when the environment lets all of them through. -/
theorem emit_done_iff (evs : List Event) (s t : State) : emit evs s = .done t ↔ s.letsThrough evs ∧ t = s.sent evs := by
  refine ⟨fun h => ?_, fun h => h.2 ▸ emit_done evs s h.1⟩
  rcases emit_cases evs s with ⟨he, hb⟩ | ⟨k, c, _, _, _, he⟩ | ⟨f, he⟩
  · refine ⟨⟨hb, ?_⟩, ?_⟩
    · cases hw : s.env.waits with
      | none => simp [Env.servesWaits, hw]
      | some m =>
        by_contra hlt
        simp only [Env.servesWaits, hw, Option.getD_some, Nat.not_le] at hlt
        rw [emit_unserved evs s m hw hlt hb] at he
        cases he
    · rw [he] at h
      exact (Sent.done.inj h).symm
  · rw [he] at h; cases h
  · rw [he] at h; cases h

end Sys2Proof.Machine
end

