-- ==== Sys2Proof/Laws/Encoding.lean ====
section
/-! SUPPORT. The fields of a request word and the bits of an operand byte, put together and taken apart (30_encoding.md R100, R101, R105). -/

namespace Sys2Proof

theorem requestWord_toNat (o a b c : Byte) :
    (requestWord o a b c).toNat = 16777216 * o.toNat + 65536 * a.toNat + 256 * b.toNat + c.toNat := by
  have ha := a.isLt
  have hb := b.isLt
  have hc := c.isLt
  have h : (requestWord o a b c).toNat = ((o.toNat <<< 8 ||| a.toNat) <<< 8 ||| b.toNat) <<< 8 ||| c.toNat :=
    (BitVec.toNat_append _ _).trans (by rw [BitVec.toNat_append, BitVec.toNat_append])
  rw [h, ← Nat.shiftLeft_add_eq_or_of_lt ha, ← Nat.shiftLeft_add_eq_or_of_lt hb, ← Nat.shiftLeft_add_eq_or_of_lt hc]
  simp only [Nat.shiftLeft_eq]
  omega

/-- The fields of a word that was put together. -/
theorem requestWord_fields (o a b c : Byte) :
    fieldOp (requestWord o a b c) = o ∧ fieldA (requestWord o a b c) = a ∧ fieldB (requestWord o a b c) = b ∧
      fieldC (requestWord o a b c) = c := by
  have := o.isLt
  have := a.isLt
  have := b.isLt
  have := c.isLt
  have := requestWord_toNat o a b c
  refine ⟨?_, ?_, ?_, ?_⟩ <;>
    (apply BitVec.eq_of_toNat_eq
     simp only [fieldOp, fieldA, fieldB, fieldC, BitVec.extractLsb'_toNat, Nat.shiftRight_eq_div_pow]
     omega)

/-- A word is put together from its fields. -/
theorem requestWord_of_fields (w : BitVec 32) : requestWord (fieldOp w) (fieldA w) (fieldB w) (fieldC w) = w := by
  have := w.isLt
  apply BitVec.eq_of_toNat_eq
  rw [requestWord_toNat]
  simp only [fieldOp, fieldA, fieldB, fieldC, BitVec.extractLsb'_toNat, Nat.shiftRight_eq_div_pow]
  omega

theorem packBit_bits (r : BitVec 7) (x : Bool) : operandBit (packBit r x) 0 = x ∧ (packBit r x).extractLsb' 1 7 = r := by
  revert r x; decide

theorem packBits2_bits (r : BitVec 6) (y x : Bool) :
    operandBit (packBits2 r y x) 0 = x ∧ operandBit (packBits2 r y x) 1 = y ∧ (packBits2 r y x).extractLsb' 2 6 = r := by
  revert r y x; decide

theorem packBits3_bits (r : BitVec 5) (z y x : Bool) :
    operandBit (packBits3 r z y x) 0 = x ∧ operandBit (packBits3 r z y x) 1 = y ∧ operandBit (packBits3 r z y x) 2 = z ∧
      (packBits3 r z y x).extractLsb' 3 5 = r := by
  revert r z y x; decide

theorem packBit_of_bits (a : Byte) : packBit (a.extractLsb' 1 7) (operandBit a 0) = a := by revert a; decide

theorem packBits2_of_bits (a : Byte) : packBits2 (a.extractLsb' 2 6) (operandBit a 1) (operandBit a 0) = a := by revert a; decide

theorem packBits3_of_bits (a : Byte) :
    packBits3 (a.extractLsb' 3 5) (operandBit a 2) (operandBit a 1) (operandBit a 0) = a := by revert a; decide

end Sys2Proof
end

