-- ==== Sys2Proof/Laws/Protocol.lean ====
section
/-! SUPPORT. How many transactions and waits each transfer holds (70_reset_and_hazards.md R353). -/

namespace Sys2Proof.Machine

@[simp] theorem busCount_nibbleXfer (q : Params) (bl : Bool) (n : BitVec 4) (rs : Bool) : busCount (nibbleXfer q bl n rs) = 3 := rfl
@[simp] theorem waitCount_nibbleXfer (q : Params) (bl : Bool) (n : BitVec 4) (rs : Bool) : waitCount (nibbleXfer q bl n rs) = 2 := rfl
@[simp] theorem busCount_byteXfer (q : Params) (bl : Bool) (v : Byte) (rs : Bool) : busCount (byteXfer q bl v rs) = 6 := rfl
@[simp] theorem waitCount_byteXfer (q : Params) (bl : Bool) (v : Byte) (rs : Bool) : waitCount (byteXfer q bl v rs) = 4 := rfl
@[simp] theorem busCount_framedCmd (q : Params) (c : Byte) : busCount (framedCmd q c) = 1 := rfl
@[simp] theorem waitCount_framedCmd (q : Params) (c : Byte) : waitCount (framedCmd q c) = 0 := rfl
@[simp] theorem busCount_framedData1 (q : Params) (d : Byte) : busCount (framedData1 q d) = 1 := rfl
@[simp] theorem waitCount_framedData1 (q : Params) (d : Byte) : waitCount (framedData1 q d) = 0 := rfl
@[simp] theorem busCount_framedStream (q : Params) (p : List Byte) : busCount (framedStream q p) = 2 := rfl
@[simp] theorem waitCount_framedStream (q : Params) (p : List Byte) : waitCount (framedStream q p) = 0 := rfl
@[simp] theorem busCount_backlightXfer (q : Params) (bl : Bool) : busCount (backlightXfer q bl) = 1 := rfl
@[simp] theorem waitCount_backlightXfer (q : Params) (bl : Bool) : waitCount (backlightXfer q bl) = 0 := rfl
@[simp] theorem busCount_clearSeq (q : Params) (bl : Bool) : busCount (clearSeq q bl) = 12 := rfl
@[simp] theorem waitCount_clearSeq (q : Params) (bl : Bool) : waitCount (clearSeq q bl) = 10 := rfl
@[simp] theorem busCount_homeSeq (q : Params) (bl : Bool) : busCount (homeSeq q bl) = 6 := rfl
@[simp] theorem waitCount_homeSeq (q : Params) (bl : Bool) : waitCount (homeSeq q bl) = 5 := rfl
@[simp] theorem busCount_charInitSeq (q : Params) (bl : Bool) (flags : BitVec 3) : busCount (charInitSeq q bl flags) = 30 := rfl
@[simp] theorem waitCount_charInitSeq (q : Params) (bl : Bool) (flags : BitVec 3) : waitCount (charInitSeq q bl flags) = 25 := rfl

@[simp] theorem busCount_dataXfers (q : Params) (bl : Bool) (p : List Byte) : busCount (dataXfers q bl p) = 6 * p.length := by
  induction p with
  | nil => rfl
  | cons b p ih =>
    simp only [dataXfers, List.flatMap_cons, busCount_append, busCount_byteXfer, List.length_cons] at ih ⊢
    omega

@[simp] theorem waitCount_dataXfers (q : Params) (bl : Bool) (p : List Byte) : waitCount (dataXfers q bl p) = 4 * p.length := by
  induction p with
  | nil => rfl
  | cons b p ih =>
    simp only [dataXfers, List.flatMap_cons, waitCount_append, waitCount_byteXfer, List.length_cons] at ih ⊢
    omega

theorem busCount_framedCmds (q : Params) (cs : List Byte) : busCount (cs.flatMap fun c => framedCmd q c) = cs.length := by
  induction cs with
  | nil => rfl
  | cons c cs ih => simp only [List.flatMap_cons, busCount_append, busCount_framedCmd, ih, List.length_cons]; omega

theorem waitCount_framedCmds (q : Params) (cs : List Byte) : waitCount (cs.flatMap fun c => framedCmd q c) = 0 := by
  induction cs with
  | nil => rfl
  | cons c cs ih => simp only [List.flatMap_cons, waitCount_append, waitCount_framedCmd, ih]

@[simp] theorem busCount_graphicInitSeq (q : Params) (on : Bool) :
    busCount (graphicInitSeq q on) = q.gfxInitSeq.length + 1 := by
  simp [graphicInitSeq, busCount_framedCmds, sendOled, encDisplay]

@[simp] theorem waitCount_graphicInitSeq (q : Params) (on : Bool) : waitCount (graphicInitSeq q on) = 0 := by
  simp [graphicInitSeq, waitCount_framedCmds, sendOled, encDisplay]

end Sys2Proof.Machine
end

