-- ==== Sys2Proof/Laws/Events.lean ====
section
/-! SUPPORT. Every transfer of a family holds only events of that family (Safety.lean, eventOk), and none releases the handle. -/

namespace Sys2Proof.Machine

/-- A list of events fit for a block with legal masks: each is an event of the family, and none is a release. -/
structure FitEvents (q : Params) (evs : List Event) : Prop where
  ok : ∀ e ∈ evs, eventOk q e
  noRelease : releaseCount evs = 0

theorem FitEvents.append {q : Params} {xs ys : List Event} (hx : FitEvents q xs) (hy : FitEvents q ys) : FitEvents q (xs ++ ys) :=
  ⟨fun e he => (List.mem_append.mp he).elim (hx.ok e) (hy.ok e), by simp [hx.noRelease, hy.noRelease]⟩

theorem FitEvents.nil (q : Params) : FitEvents q [] := ⟨fun e he => by simp at he, rfl⟩

theorem FitEvents.wait {q : Params} (hf : q.family = .char) {k : WaitKind} {t : Nat} (ht : t ∈ waitDurations q k) :
    FitEvents q [.wait k t] :=
  ⟨fun e he => by simp only [List.mem_singleton] at he; subst he; exact ⟨hf, ht⟩, rfl⟩

theorem FitEvents.cut {q : Params} {evs : List Event} (h : FitEvents q evs) (k : Nat) : FitEvents q (cutAfterBus k evs) :=
  ⟨fun e he => h.ok e (mem_of_mem_cutAfterBus he), by
    have := (cutAfterBus_sublist k evs).countP_le (p := Event.isRelease)
    have h0 := h.noRelease
    simp only [releaseCount] at h0 ⊢
    omega⟩

/-- The RW bit of a frame, with or without the latch bit, is 0 (00_scope.md R11). -/
theorem frame_rw (q : Params) (hm : q.masksWf) (bl : Bool) (n : BitVec 4) (rs : Bool) :
    frame q bl n rs &&& q.maskRw = 0 ∧ (frame q bl n rs ||| q.maskEn) &&& q.maskRw = 0 := by
  obtain ⟨hen, hbl, hne, hrw⟩ := hm
  simp only [frame, maskRs]
  rw [hrw]
  revert n bl rs
  rcases hen with hen | hen | hen <;> rcases hbl with hbl | hbl | hbl <;> simp only [hen, hbl] at hne ⊢ <;>
    first | exact absurd rfl hne | decide

theorem fit_nibbleXfer (q : Params) (hm : q.masksWf) (hf : q.family = .char) (bl : Bool) (n : BitVec 4) (rs : Bool) :
    FitEvents q (nibbleXfer q bl n rs) := by
  obtain ⟨h1, h2⟩ := frame_rw q hm bl n rs
  refine ⟨fun e he => ?_, rfl⟩
  simp only [nibbleXfer, busEvent, List.mem_cons, List.not_mem_nil, or_false] at he
  rcases he with rfl | rfl | rfl | rfl | rfl <;> simp [eventOk, hf, h1, h2, waitDurations]

theorem fit_byteXfer (q : Params) (hm : q.masksWf) (hf : q.family = .char) (bl : Bool) (v : Byte) (rs : Bool) :
    FitEvents q (byteXfer q bl v rs) :=
  (fit_nibbleXfer q hm hf bl _ rs).append (fit_nibbleXfer q hm hf bl _ rs)

theorem fit_sendHd (q : Params) (hm : q.masksWf) (hf : q.family = .char) (bl : Bool) (r : EncResult) :
    FitEvents q (sendHd q bl r) := by
  cases r with
  | ok b => exact fit_byteXfer q hm hf bl b false
  | err e => exact .nil q

theorem fit_dataXfers (q : Params) (hm : q.masksWf) (hf : q.family = .char) (bl : Bool) (p : List Byte) :
    FitEvents q (dataXfers q bl p) := by
  induction p with
  | nil => exact .nil q
  | cons b p ih => exact (fit_byteXfer q hm hf bl b true).append ih

theorem fit_backlightXfer (q : Params) (hm : q.masksWf) (hf : q.family = .char) (bl : Bool) : FitEvents q (backlightXfer q bl) := by
  refine ⟨fun e he => ?_, rfl⟩
  obtain ⟨hen, hbl, hne, hrw⟩ := hm
  simp only [backlightXfer, busEvent, List.mem_singleton] at he
  subst he
  simp only [eventOk, hf, true_and]
  refine ⟨_, rfl, ?_⟩
  rw [hrw]
  revert bl
  rcases hen with hen | hen | hen <;> rcases hbl with hbl | hbl | hbl <;> simp only [hen, hbl] at hne ⊢ <;>
    first | exact absurd rfl hne | decide

theorem fit_clearSeq (q : Params) (hm : q.masksWf) (hf : q.family = .char) (bl : Bool) : FitEvents q (clearSeq q bl) :=
  (((fit_sendHd q hm hf bl _).append (.wait hf (by simp [waitDurations]))).append (fit_sendHd q hm hf bl _)).append
    (.wait hf (by simp [waitDurations]))

theorem fit_homeSeq (q : Params) (hm : q.masksWf) (hf : q.family = .char) (bl : Bool) : FitEvents q (homeSeq q bl) :=
  (fit_sendHd q hm hf bl _).append (.wait hf (by simp [waitDurations]))

theorem fit_charInitSeq (q : Params) (hm : q.masksWf) (hf : q.family = .char) (bl : Bool) (flags : BitVec 3) :
    FitEvents q (charInitSeq q bl flags) := by
  have hw : ∀ k t, t ∈ waitDurations q k → FitEvents q [.wait k t] := fun k t h => .wait hf h
  have hn : ∀ n, FitEvents q (nibbleXfer q bl n false) := fun n => fit_nibbleXfer q hm hf bl n false
  have hs : ∀ r, FitEvents q (sendHd q bl r) := fit_sendHd q hm hf bl
  have h1 := hw .powerOn q.tPowerOn (by simp [waitDurations])
  have h2 := hw .reset q.tReset1 (by simp [waitDurations])
  have h3 := hw .reset q.tReset2 (by simp [waitDurations])
  have h4 := hw .reset q.tReset3 (by simp [waitDurations])
  have h5 := hw .settle4 q.tSettle4 (by simp [waitDurations])
  exact ((((((((((h1.append (hn _)).append h2).append (hn _)).append h3).append (hn _)).append h4).append (hn _)).append h5).append
    (hs _)).append (hs _)).append (hs _)

theorem fit_framed (q : Params) (hf : q.family = .graphic) (bytes : List Byte) (hb : bytes ≠ []) : FitEvents q [busEvent q bytes] :=
  ⟨fun e he => by simp only [busEvent, List.mem_singleton] at he; subst he; simp [eventOk, hf, hb], rfl⟩

theorem fit_framedCmd (q : Params) (hf : q.family = .graphic) (c : Byte) : FitEvents q (framedCmd q c) := fit_framed q hf _ (by simp)

theorem fit_framedData1 (q : Params) (hf : q.family = .graphic) (d : Byte) : FitEvents q (framedData1 q d) := fit_framed q hf _ (by simp)

theorem fit_framedStream (q : Params) (hf : q.family = .graphic) (p : List Byte) (hp : p ≠ []) : FitEvents q (framedStream q p) :=
  (fit_framed q hf [q.ctrlStream] (by simp)).append (fit_framed q hf p hp)

theorem fit_sendOled (q : Params) (hf : q.family = .graphic) (r : EncResult) : FitEvents q (sendOled q r) := by
  cases r with
  | ok b => exact fit_framedCmd q hf b
  | err e => exact .nil q

theorem fit_graphicInitSeq (q : Params) (hf : q.family = .graphic) (on : Bool) : FitEvents q (graphicInitSeq q on) := by
  refine FitEvents.append ?_ (fit_sendOled q hf _)
  induction q.gfxInitSeq with
  | nil => exact .nil q
  | cons c cs ih => exact (fit_framedCmd q hf c).append ih

end Sys2Proof.Machine
end

