-- ==== Sys2Proof/Laws/Request.lean ====
section
/-! SUPPORT. What running a request can do: the checks first, then the body; and what the shared bodies can do. -/

namespace Sys2Proof.Machine

/-- The checks of R302, as one conjunction: none fails exactly when all pass. -/
theorem firstError_none (k : Checks) (s : State) :
    firstError k s = none ↔ releasedError k.life s.lifecycle = none ∧ familyError k.fam s.family = none ∧
      lifecycleError k.life s.lifecycle = none ∧ k.reservedZero = true ∧ k.operand = none ∧ k.lengthOk = true := by
  unfold firstError
  cases releasedError k.life s.lifecycle <;> cases familyError k.fam s.family <;> cases lifecycleError k.life s.lifecycle <;>
    cases k.reservedZero <;> cases k.operand <;> cases k.lengthOk <;> simp

theorem request_accepted (k : Checks) (s : State) (body : State → Result) (h : firstError k s = none) :
    request k s body = body s := by
  simp [request, h]

theorem request_rejected (k : Checks) (s : State) (body : State → Result) (e : Status) (h : firstError k s = some e) :
    request k s body = .next (raise e s) := by
  simp [request, h]

/-- Everything a request can do when it answers a next state. -/
theorem request_next (k : Checks) (s : State) (body : State → Result) (t : State) (h : request k s body = .next t) :
    (∃ e, firstError k s = some e ∧ t = raise e s) ∨ (firstError k s = none ∧ body s = .next t) := by
  cases he : firstError k s with
  | some e =>
    simp only [request, he, Host.Outcome.next.injEq] at h
    exact .inl ⟨e, rfl, h.symm⟩
  | none => exact .inr ⟨rfl, by simpa [request, he] using h⟩

theorem requestReadReg_next (k : Checks) (s : State) (body : State → Result) (t : State) (h : requestReadReg k s body = .next t) :
    (∃ e, firstError k s = some e ∧ t = respondReadReg e [] s) ∨ (firstError k s = none ∧ body s = .next t) := by
  cases he : firstError k s with
  | some e =>
    simp only [requestReadReg, he, Host.Outcome.next.injEq] at h
    exact .inl ⟨e, rfl, h.symm⟩
  | none => exact .inr ⟨rfl, by simpa [requestReadReg, he] using h⟩

theorem sendAndRespond_done (evs : List Event) (s : State) (h : s.letsThrough evs) :
    sendAndRespond evs s = .next (respond .ok [] (s.sent evs)) :=
  traffic_done _ _ _ _ h

/-- Everything a sending body can do when it answers a next state: all sent and OK, or cut at the failing transaction. -/
theorem sendAndRespond_next (evs : List Event) (s t : State) (h : sendAndRespond evs s = .next t) :
    t = respond .ok [] (s.sent evs) ∨
    ∃ k c, k < busCount evs ∧ s.env.acksBus k ∧ s.env.answer k = .fail c ∧ t = raiseTransport c (s.sent (cutAfterBus k evs)) := by
  rcases traffic_next _ _ _ _ _ h with h | h
  · exact .inl (Host.Outcome.next.inj h).symm
  · exact .inr h

/-- Everything a bare controller command can do when it answers a next state. -/
theorem controllerCommand_next (fam : Family) (err : Option Status) (evs : List Event) (s t : State)
    (h : controllerCommand fam err evs s = .next t) :
    (∃ e, t = raise e s) ∨
    (s.lifecycle ≠ .released ∧ s.family = fam ∧ err = none ∧
      (t = s.sent evs ∨
       ∃ k c, k < busCount evs ∧ s.env.acksBus k ∧ s.env.answer k = .fail c ∧ t = raiseTransport c (s.sent (cutAfterBus k evs)))) := by
  unfold controllerCommand at h
  split at h
  · exact .inl ⟨_, (Host.Outcome.next.inj h).symm⟩
  · split at h
    · exact .inl ⟨_, (Host.Outcome.next.inj h).symm⟩
    · rename_i hl hf
      cases err with
      | some e => exact .inl ⟨e, (Host.Outcome.next.inj h).symm⟩
      | none =>
        refine .inr ⟨hl, not_not.mp hf, rfl, ?_⟩
        rcases traffic_next _ _ _ _ _ h with h | h
        · exact .inl (Host.Outcome.next.inj h).symm
        · exact .inr h

theorem controllerCommand_done (fam : Family) (evs : List Event) (s : State) (hl : s.lifecycle ≠ .released) (hf : s.family = fam)
    (h : s.letsThrough evs) : controllerCommand fam none evs s = .next (s.sent evs) := by
  simp [controllerCommand, hl, hf, traffic_done _ _ _ _ h]

/-- A store in canonical form answers every slot. -/
theorem respondStore_eq (a n : Nat) (s : State) (bs : List Byte) (h : s.store.readN a n = some bs) :
    respondStore a n s = .next (respond .ok bs s) := by
  simp [respondStore, h]

theorem respondStore_next (a n : Nat) (s t : State) (h : respondStore a n s = .next t) :
    ∃ bs, s.store.readN a n = some bs ∧ t = respond .ok bs s := by
  unfold respondStore at h
  split at h
  · rename_i bs hb
    exact ⟨bs, hb, (Host.Outcome.next.inj h).symm⟩
  · cases h

end Sys2Proof.Machine
end

