-- ==== Sys2Proof/Laws/Exec.lean ====
section
/-! SUPPORT. What exec can do, said once: `exec_next` lists every form of next state an instruction can answer. Later proofs take its cases
instead of unfolding the meanings. -/

namespace Sys2Proof.Machine

/-- The state writes an instruction makes before its first event (45_high_level_ops.md R264); INIT, TEARDOWN and the readers aside. -/
def writesOf (i : Instr) (s : State) : State :=
  match i with
  | .setCursorStyle v b _ _ _ _      => s.setCursor v b
  | .setDisplayOnChar on _ _ _ _     => s.setDisplay on
  | .setDisplayOnGraphic on _ _ _ _  => s.setDisplay on
  | .setBacklight on _ _ _ _         => s.setBacklight on
  | .setGlyph index _ _ p            => s.setStore (s.store.writeN (8 * index.toNat) p)
  | .setAllGlyphs _ _ _ p            => s.setStore (s.store.writeN 0 p)
  | _                                => s

/-- The events a sending instruction emits when none of its transactions fails; INIT aside. -/
def trafficOf (i : Instr) (s : State) : List Event :=
  let q := s.params
  let bl := s.backlight
  match i with
  | .clear _ _ _ _                   => clearSeq q bl
  | .home _ _ _ _                    => homeSeq q bl
  | .setPos x y _ _                  =>
    match ddramAddr s x y with
    | some a => sendHd q bl (encSetDdram (a.setWidth 8))
    | none   => []
  | .writeText _ _ _ p               => dataXfers q bl p
  | .writeTextAtLine row _ _ p       =>
    match ddramAddr s 0 row with
    | some a => sendHd q bl (encSetDdram (a.setWidth 8)) ++ dataXfers q bl p
    | none   => []
  | .setCursorStyle v b _ _ _ _      => sendHd q bl (encDisplayControl (flagsByte (s.setCursor v b)))
  | .setDisplayOnChar on _ _ _ _     => sendHd q bl (encDisplayControl (flagsByte (s.setDisplay on)))
  | .setDisplayOnGraphic on _ _ _ _  => sendOled q (encDisplay on)
  | .setBacklight on _ _ _ _         => backlightXfer q on
  | .setGlyph index _ _ p            => sendHd q bl (encSetCgram (8 * index)) ++ dataXfers q bl p
  | .setAllGlyphs _ _ _ p            => sendHd q bl (encSetCgram 0) ++ dataXfers q bl p
  | .writeCommandChar v _ _ _        => byteXfer q bl v false
  | .writeCommandGraphic v _ _ _     => framedCmd q v
  | .writeDataChar v _ _ _           => byteXfer q bl v true
  | .writeDataGraphic v _ _ _        => framedData1 q v
  | .writeDataStream _ _ _ p         => framedStream q p
  | .cmdEntryMode inc sh _ _ _ _     => sendHd q bl (encEntryMode inc sh)
  | .cmdFunctionSet dl n f _ _ _ _   => sendHd q bl (encFunctionSet dl n f)
  | .cmdSetCgram o _ _ _             => sendHd q bl (encSetCgram o)
  | .cmdSetDdram o _ _ _             => sendHd q bl (encSetDdram o)
  | .setContrast v _ _ _             => framedCmd q (encContrast v).1 ++ framedCmd q (encContrast v).2
  | .setAllPixelsOn on _ _ _ _       => sendOled q (encAllOn on)
  | .setInverse on _ _ _ _           => sendOled q (encInverse on)
  | .hdClear                         => sendHd q bl encClear
  | .hdHome _                        => sendHd q bl encHome
  | .hdEntryMode inc sh              => sendHd q bl (encEntryMode inc sh)
  | .hdDisplayControl d c b          => sendHd q bl (encDisplayControl ((bit3 d <<< 2) ||| (bit3 c <<< 1) ||| bit3 b))
  | .hdFunctionSet dl n f _          => sendHd q bl (encFunctionSet dl n f)
  | .hdSetCgramAddr a                => sendHd q bl (encSetCgram (a.setWidth 8))
  | .hdSetDdramAddr a                => sendHd q bl (encSetDdram (a.setWidth 8))
  | .nibIfaceReset                   => ifaceReset q bl
  | .nibIface4bit                    => iface4bit q bl
  | .oledSetContrast v               => framedCmd q (encContrast v).1 ++ framedCmd q (encContrast v).2
  | .oledAllOn b                     => sendOled q (encAllOn b)
  | .oledInverse b                   => sendOled q (encInverse b)
  | .oledDisplay b                   => sendOled q (encDisplay b)
  | .init _ _ _ _ _ _ | .teardown _ _ _ _ | .readReg _ _ _ _ | .getGlyph _ _ _ _ | .getAllGlyphs _ _ _ _ => []

/-- The state of INIT when its body begins to send: the geometry and flags of a supported variant are written (44_lifecycle.md R220). -/
structure InitBegun (i : Instr) (s w : State) : Prop where
  isInit : ∃ variant bl on resB c p g, i = .init variant bl on resB c p ∧ supportedVariant s.params variant = some g ∧
    w = initWrites variant g bl on s
  uninitialized : s.lifecycle = .uninitialized

/-- The two parts of INIT's traffic: before and after READY (R221, R224). -/
def initBefore (w : State) : List Event :=
  match w.family with
  | .char    => charInitSeq w.params w.backlight (flagsByte w)
  | .graphic => graphicInitSeq w.params w.displayOn

/-- See `initBefore`. -/
def initAfter (w : State) : List Event :=
  match w.family with
  | .char    => clearSeq w.params w.backlight
  | .graphic => []

/-- An instruction whose body only sends: a request that is none of INIT, TEARDOWN, READ_REG and the glyph readers. -/
def sends (i : Instr) : Bool :=
  match i with
  | .init _ _ _ _ _ _ | .teardown _ _ _ _ | .readReg _ _ _ _ | .getGlyph _ _ _ _ | .getAllGlyphs _ _ _ _ => false
  | i => i.isRequest

/-- Every form of next state. -/
inductive Next (i : Instr) (s : State) : State → Prop where
  /-- a check fails -/
  | rejected (e : Status) (h : i.isReadReg = false) (he : e ≠ .ok ∧ e ≠ .transport) : Next i s (raise e s)
  | readRegRejected (e : Status) (h : i.isReadReg = true) (he : e ≠ .ok ∧ e ≠ .transport) : Next i s (respondReadReg e [] s)
  | readReg (v : Byte) (h : i.isReadReg = true) : Next i s (respondReadReg .ok [v] s)
  | glyph (index b c : Byte) (p bytes : List Byte) (h : i = .getGlyph index b c p)
      (hb : s.store.readN (8 * index.toNat) 8 = some bytes) (ha : s.lifecycle = .ready) : Next i s (respond .ok bytes s)
  | allGlyphs (a b c : Byte) (p bytes : List Byte) (h : i = .getAllGlyphs a b c p) (hb : s.store.readN 0 64 = some bytes)
      (ha : s.lifecycle = .ready) : Next i s (respond .ok bytes s)
  | teardown (h : i.isTeardown = true) (hl : s.lifecycle ≠ .released) : Next i s (respond .ok [] s.releaseHandle)
  | teardownAgain (h : i.isTeardown = true) (hl : s.lifecycle = .released) : Next i s (respond .ok [] s)
  /-- a request ran its body and sent everything -/
  | sent (h : sends i = true) (hl : s.lifecycle = .ready) (hf : i.onlyFamily = some s.family)
      (hw : i.lengthLegal s.params = true ∧ i.operandsLegal s.params = true) :
      Next i s (respond .ok [] ((writesOf i s).sent (trafficOf i s)))
  /-- a request ran its body and a transaction failed -/
  | cut (h : sends i = true) (hl : s.lifecycle = .ready) (hf : i.onlyFamily = some s.family)
      (hw : i.lengthLegal s.params = true ∧ i.operandsLegal s.params = true) (k : Nat) (c : Cause)
      (hk : k < busCount (trafficOf i s)) (hpre : s.env.acksBus k) (ha : s.env.answer k = .fail c) :
      Next i s (raiseTransport c ((writesOf i s).sent (cutAfterBus k (trafficOf i s))))
  /-- a bare controller command -/
  | commandSent (h : i.isRequest = false) (hl : s.lifecycle ≠ .released) (hf : i.onlyFamily = some s.family) :
      Next i s (s.sent (trafficOf i s))
  | commandCut (h : i.isRequest = false) (hl : s.lifecycle ≠ .released) (hf : i.onlyFamily = some s.family) (k : Nat) (c : Cause)
      (hk : k < busCount (trafficOf i s)) (hpre : s.env.acksBus k) (ha : s.env.answer k = .fail c) :
      Next i s (raiseTransport c (s.sent (cutAfterBus k (trafficOf i s))))
  /-- INIT -/
  | initDone (w : State) (h : InitBegun i s w) :
      Next i s (respond .ok [] (((w.sent (initBefore w)).setLifecycle .ready).sent (initAfter w)))
  | initCutBefore (w : State) (h : InitBegun i s w) (k : Nat) (c : Cause) (hk : k < busCount (initBefore w))
      (hpre : s.env.acksBus k) (ha : s.env.answer k = .fail c) :
      Next i s (raiseTransport c ((w.sent (cutAfterBus k (initBefore w))).setLifecycle .failed))
  | initCutAfter (w : State) (h : InitBegun i s w) (k : Nat) (c : Cause) (hk : k < busCount (initAfter w))
      (hpre : ((w.sent (initBefore w)).setLifecycle .ready).env.acksBus k)
      (ha : ((w.sent (initBefore w)).setLifecycle .ready).env.answer k = .fail c) :
      Next i s (raiseTransport c (((w.sent (initBefore w)).setLifecycle .ready).sent (cutAfterBus k (initAfter w))))

/-- The status of a failed check is neither OK nor ERR_TRANSPORT, if that of the operand check is not. -/
theorem firstError_precondition (k : Checks) (s : State) (e : Status) (ho : ∀ o, k.operand = some o → o ≠ .ok ∧ o ≠ .transport)
    (h : firstError k s = some e) : e ≠ .ok ∧ e ≠ .transport := by
  unfold firstError at h
  rcases hr : releasedError k.life s.lifecycle with _ | r
  · rcases hf : familyError k.fam s.family with _ | r
    · rcases hl : lifecycleError k.life s.lifecycle with _ | r
      · simp only [hr, hf, hl] at h
        split at h
        · cases h; simp
        · rcases hop : k.operand with _ | o
          · simp only [hop] at h
            split at h
            · cases h; simp
            · cases h
          · simp only [hop] at h
            cases h
            exact ho _ hop
      · simp only [hr, hf, hl] at h
        cases h
        unfold lifecycleError at hl
        split at hl
        · cases hl
        · split at hl <;> cases hl <;> simp
        · split at hl <;> cases hl; simp
    · simp only [hr, hf] at h
      cases h
      unfold familyError at hf
      split at hf
      · cases hf
      · split at hf <;> cases hf; simp
  · simp only [hr] at h
    cases h
    unfold releasedError at hr
    split at hr
    · cases hr
    · split at hr <;> cases hr; simp
    · split at hr <;> cases hr; simp

/-- The accepted checks of a READY-only request of one family. -/
theorem firstError_ready (f : Family) (r : Bool) (o : Option Status) (l : Bool) (s : State)
    (h : firstError { fam := .only f, life := .ready, reservedZero := r, operand := o, lengthOk := l } s = none) :
    s.lifecycle = .ready ∧ s.family = f ∧ r = true ∧ o = none ∧ l = true := by
  obtain ⟨_, h2, h3, h4, h5, h6⟩ := (firstError_none _ _).mp h
  simp only [familyError, ite_eq_left_iff, reduceCtorEq, imp_false, not_not] at h2
  simp only [lifecycleError, ite_eq_left_iff, reduceCtorEq, imp_false, not_not] at h3
  exact ⟨h3, h2.symm, h4, h5, h6⟩

/-- A READY-only request of one family passes its checks. -/
theorem firstError_ready_intro (f : Family) (s : State) (hl : s.lifecycle = .ready) (hf : s.family = f) :
    firstError { fam := .only f, life := .ready, reservedZero := true, operand := none, lengthOk := true } s = none := by
  rw [firstError_none]
  simp [releasedError, familyError, lifecycleError, hl, hf]

/-- The next states of a READY-only request of one family whose body sends. -/
theorem readySend_next (i : Instr) (s t : State) (f : Family) (r : Bool) (o : Option Status) (l : Bool)
    (hs : sends i = true) (hfam : i.onlyFamily = some f)
    (ho : ∀ e, o = some e → e ≠ .ok ∧ e ≠ .transport)
    (hlegal : o = none → l = true → i.lengthLegal s.params = true ∧ i.operandsLegal s.params = true)
    (body : State → Result)
    (hbody : o = none → s.lifecycle = .ready → body s = .next t → sendAndRespond (trafficOf i s) (writesOf i s) = .next t)
    (h : request { fam := .only f, life := .ready, reservedZero := r, operand := o, lengthOk := l } s body = .next t) :
    Next i s t := by
  have hnr : i.isReadReg = false := by cases i <;> first | rfl | cases hs
  have henv : (writesOf i s).env = s.env := by cases i <;> rfl
  rcases request_next _ _ _ _ h with ⟨e, he, rfl⟩ | ⟨hn, hb⟩
  · exact .rejected e hnr (firstError_precondition _ _ _ (by simpa using ho) he)
  · obtain ⟨hl, hf, _, hop, hlen⟩ := firstError_ready _ _ _ _ _ hn
    subst hf
    rcases sendAndRespond_next _ _ _ (hbody hop hl hb) with rfl | ⟨k, c, hk, hpre, ha, rfl⟩
    · exact .sent hs hl hfam (hlegal hop hlen)
    · rw [henv] at hpre ha
      exact .cut hs hl hfam (hlegal hop hlen) k c hk hpre ha

/-- The next states of a bare controller command. -/
theorem controller_next (i : Instr) (s t : State) (f : Family) (err : Option Status) (hi : i.isRequest = false)
    (hfam : i.onlyFamily = some f) (herr : ∀ e, err = some e → e ≠ .ok ∧ e ≠ .transport)
    (h : controllerCommand f err (trafficOf i s) s = .next t) : Next i s t := by
  have hnr : i.isReadReg = false := by cases i <;> first | rfl | cases hi
  unfold controllerCommand at h
  split at h
  · cases h; exact .rejected _ hnr (by simp)
  · rename_i hl
    split at h
    · cases h; exact .rejected _ hnr (by simp)
    · rename_i hf
      obtain rfl : s.family = f := not_not.mp hf
      cases err with
      | some e => cases h; exact .rejected _ hnr (herr e rfl)
      | none =>
        rcases traffic_next _ _ _ _ _ h with h | ⟨k, c, hk, hpre, ha, rfl⟩
        · cases h; exact .commandSent hi hl hfam
        · exact .commandCut hi hl hfam k c hk hpre ha

@[simp] theorem initWrites_env (v : Byte) (g : Geometry) (bl on : Bool) (s : State) : (initWrites v g bl on s).env = s.env := rfl
@[simp] theorem initWrites_params (v : Byte) (g : Geometry) (bl on : Bool) (s : State) : (initWrites v g bl on s).params = s.params := rfl
@[simp] theorem initWrites_lifecycle (v : Byte) (g : Geometry) (bl on : Bool) (s : State) :
    (initWrites v g bl on s).lifecycle = s.lifecycle := rfl

theorem raiseTransportInit_ready (c : Cause) (s : State) (h : s.lifecycle = .ready) : raiseTransportInit c s = raiseTransport c s := by
  simp [raiseTransportInit, h]

theorem raiseTransportInit_notReady (c : Cause) (s : State) (h : s.lifecycle ≠ .ready) :
    raiseTransportInit c s = raiseTransport c (s.setLifecycle .failed) := by
  simp [raiseTransportInit, h]

/-- The next states of INIT's body. -/
theorem initBody_next (i : Instr) (s w t : State) (h : InitBegun i s w)
    (hb : (match w.family with | .char => charInit w | .graphic => graphicInit w) = .next t) : Next i s t := by
  obtain ⟨⟨v, bl, on, r, c, p, g, rfl, hg, rfl⟩, hu⟩ := h
  have hlc : (initWrites v g bl on s).lifecycle ≠ .ready := by simp [hu]
  cases hf : (initWrites v g bl on s).family with
  | char =>
    simp only [hf] at hb
    rcases traffic_next _ _ _ _ _ hb with hb | ⟨k, c', hk, hpre, ha, rfl⟩
    · rcases traffic_next _ _ _ _ _ hb with hb | ⟨k, c', hk, hpre, ha, rfl⟩
      · cases hb
        have := Next.initDone (i := .init v bl on r c p) _ ⟨⟨v, bl, on, r, c, p, g, rfl, hg, rfl⟩, hu⟩
        simpa [initBefore, initAfter, hf] using this
      · have := Next.initCutAfter (i := .init v bl on r c p) _ ⟨⟨v, bl, on, r, c, p, g, rfl, hg, rfl⟩, hu⟩ k c'
          (by simpa [initAfter, hf] using hk) (by simpa [initBefore, hf] using hpre) (by simpa [initBefore, hf] using ha)
        rw [raiseTransportInit_ready _ _ (by simp)]
        simpa [initBefore, initAfter, hf] using this
    · have := Next.initCutBefore (i := .init v bl on r c p) _ ⟨⟨v, bl, on, r, c, p, g, rfl, hg, rfl⟩, hu⟩ k c'
        (by simpa [initBefore, hf] using hk) (by simpa using hpre) (by simpa using ha)
      rw [raiseTransportInit_notReady _ _ (by simpa using hlc)]
      simpa [initBefore, hf] using this
  | graphic =>
    simp only [hf] at hb
    rcases traffic_next _ _ _ _ _ hb with hb | ⟨k, c', hk, hpre, ha, rfl⟩
    · cases hb
      have := Next.initDone (i := .init v bl on r c p) _ ⟨⟨v, bl, on, r, c, p, g, rfl, hg, rfl⟩, hu⟩
      simpa [initBefore, initAfter, hf] using this
    · have := Next.initCutBefore (i := .init v bl on r c p) _ ⟨⟨v, bl, on, r, c, p, g, rfl, hg, rfl⟩, hu⟩ k c'
        (by simpa [initBefore, hf] using hk) (by simpa using hpre) (by simpa using ha)
      rw [raiseTransportInit_notReady _ _ (by simpa using hlc)]
      simpa [initBefore, hf] using this

theorem encFunctionSet_error (dl n f : Bool) (e : Status) (h : (encFunctionSet dl n f).error? = some e) : e = .unsupportedConfig := by
  cases dl <;> simp [encFunctionSet, EncResult.error?] at h
  exact h.symm

theorem encSetCgram_error (o : Byte) : (encSetCgram o).error? = if o ≤ 0x3F then none else some .badOperand := by
  by_cases h : 0x3F < o
  · rw [encSetCgram, if_pos h, if_neg (BitVec.not_le.mpr h)]; rfl
  · rw [encSetCgram, if_neg h, if_pos (BitVec.not_lt.mp h)]; rfl

theorem encSetDdram_error (o : Byte) : (encSetDdram o).error? = if o ≤ 0x7F then none else some .badOperand := by
  by_cases h : 0x7F < o
  · rw [encSetDdram, if_pos h, if_neg (BitVec.not_le.mpr h)]; rfl
  · rw [encSetDdram, if_neg h, if_pos (BitVec.not_lt.mp h)]; rfl

/-- Everything exec can do when it answers a next state. -/
theorem exec_next (i : Instr) (s t : State) (h : exec i s = .next t) : Next i s t := by
  cases i with
  | init v bl on r c p =>
    unfold exec execInit at h
    rcases request_next _ _ _ _ h with ⟨e, he, rfl⟩ | ⟨hn, hb⟩
    · refine .rejected e rfl (firstError_precondition _ _ _ (fun o ho => ?_) he)
      simp only [variantError] at ho
      split at ho <;> cases ho; simp
    · obtain ⟨_, _, hl, _, _, _⟩ := (firstError_none _ _).mp hn
      have hu : s.lifecycle = .uninitialized := by
        simp only [lifecycleError] at hl
        split at hl <;> first | assumption | cases hl
      cases hg : supportedVariant s.params v with
      | none => simp only [hg] at hb; cases hb; exact .rejected _ rfl (by simp)
      | some g =>
        simp only [hg] at hb
        exact initBody_next _ _ _ _ ⟨⟨v, bl, on, r, c, p, g, rfl, hg, rfl⟩, hu⟩ hb
  | teardown a b c p =>
    unfold exec execTeardown at h
    rcases request_next _ _ _ _ h with ⟨e, he, rfl⟩ | ⟨_, hb⟩
    · exact .rejected e rfl (firstError_precondition _ _ _ (by simp) he)
    · split at hb
      · cases hb; exact .teardownAgain rfl (by assumption)
      · cases hb; exact .teardown rfl (by assumption)
  | readReg reg b c p =>
    unfold exec execReadReg at h
    rcases requestReadReg_next _ _ _ _ h with ⟨e, he, rfl⟩ | ⟨_, hb⟩
    · refine .readRegRejected e rfl (firstError_precondition _ _ _ (fun o ho => ?_) he)
      simp only [registerError] at ho
      split at ho <;> cases ho; simp
    · split at hb
      · cases hb; exact .readReg _ rfl
      · cases hb
  | getGlyph index b c p =>
    unfold exec execGetGlyph at h
    rcases request_next _ _ _ _ h with ⟨e, he, rfl⟩ | ⟨hn, hb⟩
    · refine .rejected e rfl (firstError_precondition _ _ _ (fun o ho => ?_) he)
      simp only [indexError] at ho
      split at ho <;> cases ho; simp
    · obtain ⟨bs, hbs, rfl⟩ := respondStore_next _ _ _ _ hb
      exact .glyph index b c p bs rfl hbs (firstError_ready _ _ _ _ _ hn).1
  | getAllGlyphs a b c p =>
    unfold exec execGetAllGlyphs at h
    rcases request_next _ _ _ _ h with ⟨e, he, rfl⟩ | ⟨hn, hb⟩
    · exact .rejected e rfl (firstError_precondition _ _ _ (by simp) he)
    · obtain ⟨bs, hbs, rfl⟩ := respondStore_next _ _ _ _ hb
      exact .allGlyphs a b c p bs rfl hbs (firstError_ready _ _ _ _ _ hn).1
  | setPos x y c p =>
    unfold exec execSetPos at h
    refine readySend_next (.setPos x y c p) s t .char _ _ _ rfl rfl (fun e he => ?_) (fun _ hl => ⟨by simpa [Instr.lengthLegal] using hl, rfl⟩)
      _ (fun _ _ hb => ?_) h
    · simp only [positionError] at he
      split at he <;> cases he; simp
    · simp only [trafficOf]
      revert hb
      cases ddramAddr s x y with
      | none   => intro hb; cases hb
      | some a => exact id
  | writeTextAtLine row b c p =>
    unfold exec execWriteTextAtLine at h
    refine readySend_next (.writeTextAtLine row b c p) s t .char _ _ _ rfl rfl (fun e he => ?_)
      (fun _ hl => ⟨by simpa [Instr.lengthLegal] using hl, rfl⟩) _ (fun _ _ hb => ?_) h
    · simp only [positionError] at he
      split at he <;> cases he; simp
    · simp only [trafficOf]
      revert hb
      cases ddramAddr s 0 row with
      | none   => intro hb; cases hb
      | some a => exact id
  | setGlyph index b c p =>
    unfold exec execSetGlyph at h
    refine readySend_next (.setGlyph index b c p) s t .char _ _ _ rfl rfl (fun e he => ?_)
      (fun ho hl => ⟨by simpa [Instr.lengthLegal] using hl, ?_⟩) _ (fun _ _ hb => hb) h
    · simp only [indexError] at he
      split at he <;> cases he; simp
    · simpa [Instr.operandsLegal, indexError, BitVec.not_lt] using ho
  | cmdFunctionSet dl n f r b c p =>
    unfold exec execCmdFunctionSet encoderRequest at h
    refine readySend_next (.cmdFunctionSet dl n f r b c p) s t .char _ _ _ rfl rfl (fun e he => ?_)
      (fun ho hl => ⟨by simpa [Instr.lengthLegal] using hl, ?_⟩) _ (fun _ _ hb => hb) h
    · rw [encFunctionSet_error _ _ _ _ he]; simp
    · cases dl <;> simp [encFunctionSet, EncResult.error?, Instr.operandsLegal] at ho ⊢
  | cmdSetCgram o b c p =>
    unfold exec execCmdSetCgram encoderRequest at h
    refine readySend_next (.cmdSetCgram o b c p) s t .char _ _ _ rfl rfl (fun e he => ?_)
      (fun ho hl => ⟨by simpa [Instr.lengthLegal] using hl, ?_⟩) _ (fun _ _ hb => hb) h
    · rw [encSetCgram_error] at he
      split at he <;> cases he; simp
    · rw [encSetCgram_error] at ho
      simpa [Instr.operandsLegal] using ho
  | cmdSetDdram o b c p =>
    unfold exec execCmdSetDdram encoderRequest at h
    refine readySend_next (.cmdSetDdram o b c p) s t .char _ _ _ rfl rfl (fun e he => ?_)
      (fun ho hl => ⟨by simpa [Instr.lengthLegal] using hl, ?_⟩) _ (fun _ _ hb => hb) h
    · rw [encSetDdram_error] at he
      split at he <;> cases he; simp
    · rw [encSetDdram_error] at ho
      simpa [Instr.operandsLegal] using ho
  | hdFunctionSet dl n f x =>
    unfold exec execHdFunctionSet hdCommand at h
    exact controller_next (.hdFunctionSet dl n f x) _ _ .char _ rfl rfl (fun e he => by rw [encFunctionSet_error _ _ _ _ he]; simp) h
  | hdSetCgramAddr a =>
    unfold exec execHdSetCgramAddr hdCommand at h
    refine controller_next (.hdSetCgramAddr a) _ _ .char _ rfl rfl (fun e he => ?_) h
    rw [encSetCgram_error] at he
    split at he <;> cases he; simp
  | hdSetDdramAddr a =>
    unfold exec execHdSetDdramAddr hdCommand at h
    refine controller_next (.hdSetDdramAddr a) _ _ .char _ rfl rfl (fun e he => ?_) h
    rw [encSetDdram_error] at he
    split at he <;> cases he; simp
  | hdClear =>
    unfold exec execHdClear hdCommand at h
    exact controller_next _ _ _ .char _ rfl rfl (fun e he => by cases he) h
  | hdHome _ =>
    unfold exec execHdHome hdCommand at h
    exact controller_next _ _ _ .char _ rfl rfl (fun e he => by cases he) h
  | hdEntryMode _ _ =>
    unfold exec execHdEntryMode hdCommand at h
    exact controller_next _ _ _ .char _ rfl rfl (fun e he => by cases he) h
  | hdDisplayControl _ _ _ =>
    unfold exec execHdDisplayControl hdCommand at h
    exact controller_next _ _ _ .char _ rfl rfl (fun e he => by cases he) h
  | nibIfaceReset =>
    unfold exec execNibIfaceReset at h
    exact controller_next _ _ _ .char _ rfl rfl (fun e he => by cases he) h
  | nibIface4bit =>
    unfold exec execNibIface4bit at h
    exact controller_next _ _ _ .char _ rfl rfl (fun e he => by cases he) h
  | oledSetContrast _ =>
    unfold exec execOledSetContrast at h
    exact controller_next _ _ _ .graphic _ rfl rfl (fun e he => by cases he) h
  | oledAllOn _ =>
    unfold exec execOledAllOn oledCommand at h
    exact controller_next _ _ _ .graphic _ rfl rfl (fun e he => by cases he) h
  | oledInverse _ =>
    unfold exec execOledInverse oledCommand at h
    exact controller_next _ _ _ .graphic _ rfl rfl (fun e he => by cases he) h
  | oledDisplay _ =>
    unfold exec execOledDisplay oledCommand at h
    exact controller_next _ _ _ .graphic _ rfl rfl (fun e he => by cases he) h
  | clear _ _ _ _ =>
    unfold exec execClear at h
    exact readySend_next _ _ _ .char _ _ _ rfl rfl (fun e he => by cases he)
      (fun _ hl => ⟨by simpa [Instr.lengthLegal] using hl, rfl⟩) _
      (fun _ _ hb => by simp only [trafficOf, writesOf]; exact hb) h
  | home _ _ _ _ =>
    unfold exec execHome at h
    exact readySend_next _ _ _ .char _ _ _ rfl rfl (fun e he => by cases he)
      (fun _ hl => ⟨by simpa [Instr.lengthLegal] using hl, rfl⟩) _
      (fun _ _ hb => by simp only [trafficOf, writesOf]; exact hb) h
  | setCursorStyle _ _ _ _ _ _ =>
    unfold exec execSetCursorStyle at h
    exact readySend_next _ _ _ .char _ _ _ rfl rfl (fun e he => by cases he)
      (fun _ hl => ⟨by simpa [Instr.lengthLegal] using hl, rfl⟩) _
      (fun _ _ hb => by simp only [trafficOf, writesOf]; exact hb) h
  | setDisplayOnChar _ _ _ _ _ =>
    unfold exec execSetDisplayOnChar at h
    exact readySend_next _ _ _ .char _ _ _ rfl rfl (fun e he => by cases he)
      (fun _ hl => ⟨by simpa [Instr.lengthLegal] using hl, rfl⟩) _
      (fun _ _ hb => by simp only [trafficOf, writesOf]; exact hb) h
  | setBacklight _ _ _ _ _ =>
    unfold exec execSetBacklight at h
    exact readySend_next _ _ _ .char _ _ _ rfl rfl (fun e he => by cases he)
      (fun _ hl => ⟨by simpa [Instr.lengthLegal] using hl, rfl⟩) _
      (fun _ _ hb => by simp only [trafficOf, writesOf]; exact hb) h
  | setAllGlyphs _ _ _ _ =>
    unfold exec execSetAllGlyphs at h
    exact readySend_next _ _ _ .char _ _ _ rfl rfl (fun e he => by cases he)
      (fun _ hl => ⟨hl, rfl⟩) _
      (fun _ _ hb => by simp only [trafficOf, writesOf]; exact hb) h
  | writeCommandChar _ _ _ _ =>
    unfold exec execWriteCommandChar at h
    exact readySend_next _ _ _ .char _ _ _ rfl rfl (fun e he => by cases he)
      (fun _ hl => ⟨by simpa [Instr.lengthLegal] using hl, rfl⟩) _
      (fun _ _ hb => by simp only [trafficOf, writesOf]; exact hb) h
  | writeDataChar _ _ _ _ =>
    unfold exec execWriteDataChar at h
    exact readySend_next _ _ _ .char _ _ _ rfl rfl (fun e he => by cases he)
      (fun _ hl => ⟨by simpa [Instr.lengthLegal] using hl, rfl⟩) _
      (fun _ _ hb => by simp only [trafficOf, writesOf]; exact hb) h
  | writeText _ _ _ _ =>
    unfold exec execWriteText at h
    exact readySend_next _ _ _ .char _ _ _ rfl rfl (fun e he => by cases he)
      (fun _ hl => ⟨by simpa [Instr.lengthLegal] using hl, rfl⟩) _
      (fun _ _ hb => by simp only [trafficOf, writesOf]; exact hb) h
  | cmdEntryMode _ _ _ _ _ _ =>
    unfold exec execCmdEntryMode encoderRequest at h
    exact readySend_next _ _ _ .char _ _ _ rfl rfl (fun e he => by cases he)
      (fun _ hl => ⟨by simpa [Instr.lengthLegal] using hl, rfl⟩) _
      (fun _ _ hb => by simp only [trafficOf, writesOf]; exact hb) h
  | setDisplayOnGraphic _ _ _ _ _ =>
    unfold exec execSetDisplayOnGraphic at h
    exact readySend_next _ _ _ .graphic _ _ _ rfl rfl (fun e he => by cases he)
      (fun _ hl => ⟨by simpa [Instr.lengthLegal] using hl, rfl⟩) _
      (fun _ _ hb => by simp only [trafficOf, writesOf]; exact hb) h
  | writeCommandGraphic _ _ _ _ =>
    unfold exec execWriteCommandGraphic at h
    exact readySend_next _ _ _ .graphic _ _ _ rfl rfl (fun e he => by cases he)
      (fun _ hl => ⟨by simpa [Instr.lengthLegal] using hl, rfl⟩) _
      (fun _ _ hb => by simp only [trafficOf, writesOf]; exact hb) h
  | writeDataGraphic _ _ _ _ =>
    unfold exec execWriteDataGraphic at h
    exact readySend_next _ _ _ .graphic _ _ _ rfl rfl (fun e he => by cases he)
      (fun _ hl => ⟨by simpa [Instr.lengthLegal] using hl, rfl⟩) _
      (fun _ _ hb => by simp only [trafficOf, writesOf]; exact hb) h
  | writeDataStream _ _ _ _ =>
    unfold exec execWriteDataStream at h
    exact readySend_next _ _ _ .graphic _ _ _ rfl rfl (fun e he => by cases he)
      (fun _ hl => ⟨by simpa [Instr.lengthLegal] using hl, rfl⟩) _
      (fun _ _ hb => by simp only [trafficOf, writesOf]; exact hb) h
  | setContrast _ _ _ _ =>
    unfold exec execSetContrast at h
    exact readySend_next _ _ _ .graphic _ _ _ rfl rfl (fun e he => by cases he)
      (fun _ hl => ⟨by simpa [Instr.lengthLegal] using hl, rfl⟩) _
      (fun _ _ hb => by simp only [trafficOf, writesOf]; exact hb) h
  | setAllPixelsOn _ _ _ _ _ =>
    unfold exec execSetAllPixelsOn at h
    exact readySend_next _ _ _ .graphic _ _ _ rfl rfl (fun e he => by cases he)
      (fun _ hl => ⟨by simpa [Instr.lengthLegal] using hl, rfl⟩) _
      (fun _ _ hb => by simp only [trafficOf, writesOf]; exact hb) h
  | setInverse _ _ _ _ _ =>
    unfold exec execSetInverse at h
    exact readySend_next _ _ _ .graphic _ _ _ rfl rfl (fun e he => by cases he)
      (fun _ hl => ⟨by simpa [Instr.lengthLegal] using hl, rfl⟩) _
      (fun _ _ hb => by simp only [trafficOf, writesOf]; exact hb) h

end Sys2Proof.Machine
end

