-- ==== Sys2Proof/Laws/Meaning.lean ====
section
/-! SUPPORT. The meaning of every instruction in one form, as a request behind its checks or as a bare controller command, so that no later
proof unfolds one meaning after another. -/

namespace Sys2Proof.Machine

-- the state an instruction writes before its first event: what it leaves alone

@[simp] theorem writesOf_params (i : Instr) (s : State) : (writesOf i s).params = s.params := by cases i <;> rfl
@[simp] theorem writesOf_port (i : Instr) (s : State) : (writesOf i s).port = s.port := by cases i <;> rfl
@[simp] theorem writesOf_lifecycle (i : Instr) (s : State) : (writesOf i s).lifecycle = s.lifecycle := by cases i <;> rfl
@[simp] theorem writesOf_busDesync (i : Instr) (s : State) : (writesOf i s).busDesync = s.busDesync := by cases i <;> rfl
@[simp] theorem writesOf_trace (i : Instr) (s : State) : (writesOf i s).trace = s.trace := by cases i <;> rfl
@[simp] theorem writesOf_env (i : Instr) (s : State) : (writesOf i s).env = s.env := by cases i <;> rfl
@[simp] theorem writesOf_handleHeld (i : Instr) (s : State) : (writesOf i s).handleHeld = s.handleHeld := by cases i <;> rfl
@[simp] theorem writesOf_lastStatus (i : Instr) (s : State) : (writesOf i s).lastStatus = s.lastStatus := by cases i <;> rfl
@[simp] theorem writesOf_response (i : Instr) (s : State) : (writesOf i s).response = s.response := by cases i <;> rfl
@[simp] theorem writesOf_variant (i : Instr) (s : State) : (writesOf i s).variant = s.variant := by cases i <;> rfl
@[simp] theorem writesOf_width (i : Instr) (s : State) : (writesOf i s).width = s.width := by cases i <;> rfl
@[simp] theorem writesOf_height (i : Instr) (s : State) : (writesOf i s).height = s.height := by cases i <;> rfl
@[simp] theorem writesOf_lineOffset0 (i : Instr) (s : State) : (writesOf i s).lineOffset0 = s.lineOffset0 := by cases i <;> rfl
@[simp] theorem writesOf_lineOffset1 (i : Instr) (s : State) : (writesOf i s).lineOffset1 = s.lineOffset1 := by cases i <;> rfl
@[simp] theorem writesOf_lineOffset2 (i : Instr) (s : State) : (writesOf i s).lineOffset2 = s.lineOffset2 := by cases i <;> rfl
@[simp] theorem writesOf_lineOffset3 (i : Instr) (s : State) : (writesOf i s).lineOffset3 = s.lineOffset3 := by cases i <;> rfl

/-- What a request is checked against (60_exceptions.md R302), for every instruction of the table. -/
def checksOf (i : Instr) (s : State) : Checks where
  fam := match i.onlyFamily with
    | none   => .both
    | some f => .only f
  life := if i.isInit then .uninitialized else if i.isTeardown || i.isReadReg then .any else .ready
  reservedZero := i.reservedZero
  operand := match i with
    | .init v _ _ _ _ _             => variantError s.params v
    | .readReg reg _ _ _            => registerError reg
    | .setPos x y _ _               => positionError s x y
    | .writeTextAtLine row _ _ _    => positionError s 0 row
    | .setGlyph k _ _ _             => indexError k
    | .getGlyph k _ _ _             => indexError k
    | .cmdFunctionSet dl n f _ _ _ _ => (encFunctionSet dl n f).error?
    | .cmdSetCgram o _ _ _          => (encSetCgram o).error?
    | .cmdSetDdram o _ _ _          => (encSetDdram o).error?
    | _                             => none
  lengthOk := i.lengthLegal s.params

/-- The row an instruction addresses has an offset. -/
def rowFound (i : Instr) (s : State) : Bool :=
  match i with
  | .setPos x y _ _            => (ddramAddr s x y).isSome
  | .writeTextAtLine row _ _ _ => (ddramAddr s 0 row).isSome
  | _                          => true

/-- A sending request is its writes and its traffic behind its checks. -/
theorem exec_sends (i : Instr) (s : State) (h : sends i = true) (hrow : rowFound i s = true) :
    exec i s = request (checksOf i s) s fun s => sendAndRespond (trafficOf i s) (writesOf i s) := by
  cases i with
  | setPos x y c p =>
    obtain ⟨a, ha⟩ := Option.isSome_iff_exists.mp hrow
    simp only [exec, execSetPos, request, trafficOf, writesOf, ha]
    rfl
  | writeTextAtLine row b c p =>
    obtain ⟨a, ha⟩ := Option.isSome_iff_exists.mp hrow
    simp only [exec, execWriteTextAtLine, request, trafficOf, writesOf, ha]
    rfl
  | setGlyph k b c p => rfl
  | setAllGlyphs a b c p => rfl
  | init | teardown | readReg | getGlyph | getAllGlyphs => cases h
  | hdClear | hdHome | hdEntryMode | hdDisplayControl | hdFunctionSet | hdSetCgramAddr | hdSetDdramAddr | nibIfaceReset | nibIface4bit
  | oledSetContrast | oledAllOn | oledInverse | oledDisplay => cases h
  | _ => rfl

/-- The body of a request, run when its checks pass. -/
def bodyOf (i : Instr) (s : State) : Result :=
  match i with
  | .init v bl on _ _ _        =>
    match supportedVariant s.params v with
    | none   => .next (raise .unsupportedConfig s)
    | some g =>
      match s.family with
      | .char    => charInit (initWrites v g bl on s)
      | .graphic => graphicInit (initWrites v g bl on s)
  | .teardown _ _ _ _          => if s.lifecycle = .released then .next (respond .ok [] s) else .next (respond .ok [] s.releaseHandle)
  | .readReg reg _ _ _         =>
    match regValue s reg with
    | some v => .next (respondReadReg .ok [v] s)
    | none   => .fault .storeHole
  | .getGlyph index _ _ _      => respondStore (8 * index.toNat) 8 s
  | .getAllGlyphs _ _ _ _      => respondStore 0 64 s
  | i                          => if rowFound i s then sendAndRespond (trafficOf i s) (writesOf i s) else .fault .rowMissing

/-- Every request but READ_REG is its body behind its checks. -/
theorem exec_checked (i : Instr) (s : State) (hi : i.isRequest = true) (hr : i.isReadReg = false) :
    exec i s = request (checksOf i s) s (bodyOf i) := by
  cases i with
  | readReg => cases hr
  | hdClear | hdHome | hdEntryMode | hdDisplayControl | hdFunctionSet | hdSetCgramAddr | hdSetDdramAddr | nibIfaceReset | nibIface4bit
  | oledSetContrast | oledAllOn | oledInverse | oledDisplay => cases hi
  | init => unfold exec execInit; rfl
  | teardown => unfold exec execTeardown; rfl
  | getGlyph => unfold exec execGetGlyph; rfl
  | getAllGlyphs => unfold exec execGetAllGlyphs; rfl
  | setPos x y c p =>
    have hb : bodyOf (.setPos x y c p) s = match ddramAddr s x y with
        | some a => sendAndRespond (sendHd s.params s.backlight (encSetDdram (a.setWidth 8))) s
        | none   => .fault .rowMissing := by
      rcases Option.eq_none_or_eq_some (ddramAddr s x y) with h | ⟨a, h⟩ <;> simp [bodyOf, rowFound, trafficOf, writesOf, h]
    rw [request, hb]
    rfl
  | writeTextAtLine row b c p =>
    have hb : bodyOf (.writeTextAtLine row b c p) s = match ddramAddr s 0 row with
        | some a =>
          sendAndRespond (sendHd s.params s.backlight (encSetDdram (a.setWidth 8)) ++ dataXfers s.params s.backlight p) s
        | none   => .fault .rowMissing := by
      rcases Option.eq_none_or_eq_some (ddramAddr s 0 row) with h | ⟨a, h⟩ <;> simp only [bodyOf, rowFound, trafficOf, writesOf, h] <;> rfl
    rw [request, hb]
    rfl
  | clear | home | writeText | setCursorStyle | setDisplayOnChar | setDisplayOnGraphic | setBacklight | setGlyph | setAllGlyphs
  | writeCommandChar | writeCommandGraphic | writeDataChar | writeDataGraphic | writeDataStream | cmdEntryMode | cmdFunctionSet
  | cmdSetCgram | cmdSetDdram | setContrast | setAllPixelsOn | setInverse => exact exec_sends _ s rfl rfl

/-- READ_REG behind its checks. -/
theorem exec_readReg (reg b c : Byte) (p : List Byte) (s : State) :
    exec (.readReg reg b c p) s =
      requestReadReg (checksOf (.readReg reg b c p) s) s (bodyOf (.readReg reg b c p)) := rfl

/-- A bare controller command is its encoder error or its traffic. -/
theorem exec_command (i : Instr) (s : State) (h : i.isRequest = false) :
    ∃ fam, i.onlyFamily = some fam ∧
      exec i s = controllerCommand fam (if i.operandsLegal s.params then none else some .unsupportedConfig) (trafficOf i s) s := by
  cases i with
  | hdClear | hdHome | hdEntryMode | hdDisplayControl | nibIfaceReset | nibIface4bit | oledSetContrast | oledAllOn | oledInverse
  | oledDisplay => exact ⟨_, rfl, rfl⟩
  | hdFunctionSet dl n f x => exact ⟨_, rfl, by cases dl <;> rfl⟩
  | hdSetCgramAddr a =>
    refine ⟨_, rfl, ?_⟩
    simp only [exec, execHdSetCgramAddr, hdCommand, encSetCgram_error]
    have : BitVec.setWidth 8 a ≤ 0x3F#8 := by revert a; decide
    simp [this, Instr.operandsLegal, trafficOf]
  | hdSetDdramAddr a =>
    refine ⟨_, rfl, ?_⟩
    simp only [exec, execHdSetDdramAddr, hdCommand, encSetDdram_error]
    have : BitVec.setWidth 8 a ≤ 0x7F#8 := by revert a; decide
    simp [this, Instr.operandsLegal, trafficOf]
  | _ => cases h

/-- A request whose checks pass and whose traffic the environment lets through completes. -/
theorem exec_sends_done (i : Instr) (s : State) (h : sends i = true) (hrow : rowFound i s = true)
    (hk : firstError (checksOf i s) s = none) (hb : s.env.acksBus (busCount (trafficOf i s)))
    (hw : s.env.servesWaits (waitCount (trafficOf i s))) :
    exec i s = .next (respond .ok [] ((writesOf i s).sent (trafficOf i s))) := by
  have henv : (writesOf i s).env = s.env := by cases i <;> rfl
  rw [exec_sends i s h hrow, request_accepted _ _ _ hk]
  exact sendAndRespond_done _ _ ⟨by rwa [henv], by rwa [henv]⟩

/-- A bare controller command has no payload. -/
theorem lengthLegal_of_command (i : Instr) (q : Params) (h : i.isRequest = false) : i.lengthLegal q = true := by
  cases i <;> first | rfl | cases h

/-- The traffic of an instruction of the block's family holds only events of that family. -/
theorem fit_trafficOf (i : Instr) (s : State) (hm : s.params.masksWf) (hs : i.onlyFamily = some s.family)
    (hl : i.lengthLegal s.params = true) : FitEvents s.params (trafficOf i s) := by
  have hsend : ∀ r, s.family = .char → FitEvents s.params (sendHd s.params s.backlight r) := fun r hf => fit_sendHd _ hm hf _ r
  have hdata : ∀ p, s.family = .char → FitEvents s.params (dataXfers s.params s.backlight p) := fun p hf => fit_dataXfers _ hm hf _ p
  have hcmd : ∀ c, s.family = .graphic → FitEvents s.params (framedCmd s.params c) := fun c hf => fit_framedCmd _ hf c
  have holed : ∀ r, s.family = .graphic → FitEvents s.params (sendOled s.params r) := fun r hf => fit_sendOled _ hf r
  cases i with
  | init | teardown | readReg | getGlyph | getAllGlyphs => exact .nil _
  | clear => exact fit_clearSeq _ hm (Option.some.inj hs).symm _
  | home => exact fit_homeSeq _ hm (Option.some.inj hs).symm _
  | setPos x y =>
    simp only [trafficOf]
    split
    · exact hsend _ (Option.some.inj hs).symm
    · exact .nil _
  | writeTextAtLine =>
    simp only [trafficOf]
    split
    · exact (hsend _ (Option.some.inj hs).symm).append (hdata _ (Option.some.inj hs).symm)
    · exact .nil _
  | setGlyph | setAllGlyphs => exact (hsend _ (Option.some.inj hs).symm).append (hdata _ (Option.some.inj hs).symm)
  | writeText => exact hdata _ (Option.some.inj hs).symm
  | setBacklight => exact fit_backlightXfer _ hm (Option.some.inj hs).symm _
  | writeCommandChar | writeDataChar => exact fit_byteXfer _ hm (Option.some.inj hs).symm _ _ _
  | setCursorStyle | setDisplayOnChar | cmdEntryMode | cmdFunctionSet | cmdSetCgram | cmdSetDdram | hdClear | hdHome | hdEntryMode
  | hdDisplayControl | hdFunctionSet | hdSetCgramAddr | hdSetDdramAddr =>
    simp only [trafficOf]
    exact hsend _ (Option.some.inj hs).symm
  | nibIfaceReset | nibIface4bit => exact fit_nibbleXfer _ hm (Option.some.inj hs).symm _ _ _
  | writeCommandGraphic => exact hcmd _ (Option.some.inj hs).symm
  | writeDataGraphic => exact fit_framedData1 _ (Option.some.inj hs).symm _
  | writeDataStream =>
    refine fit_framedStream _ (Option.some.inj hs).symm _ fun h => ?_
    simp [Instr.lengthLegal, h] at hl
  | setContrast | oledSetContrast => exact (hcmd _ (Option.some.inj hs).symm).append (hcmd _ (Option.some.inj hs).symm)
  | setAllPixelsOn | setInverse | setDisplayOnGraphic | oledAllOn | oledInverse | oledDisplay =>
    simp only [trafficOf]
    exact holed _ (Option.some.inj hs).symm

/-- So does INIT's. -/
theorem fit_init (w : State) (hm : w.params.masksWf) : FitEvents w.params (initBefore w) ∧ FitEvents w.params (initAfter w) := by
  unfold initBefore initAfter
  cases h : w.family
  · exact ⟨fit_charInitSeq _ hm h _ _, fit_clearSeq _ hm h _⟩
  · exact ⟨fit_graphicInitSeq _ h _, .nil _⟩

end Sys2Proof.Machine
end

