-- ==== Sys2Proof/Laws/Memory.lean ====
section
/-! SUPPORT. The laws of the glyph store: a read after a write, a write leaves the other offsets alone, and every operation keeps the
canonical form. -/

namespace Sys2Proof.Machine

theorem Memory.read_write_same (m : Memory) (a : Nat) (b : Byte) : (m.write a b).read a = some b := by
  induction m with
  | nil => simp [Memory.write, Memory.read]
  | cons c rest ih =>
    obtain ⟨k, v⟩ := c
    by_cases h : a < k
    · simp [Memory.write, Memory.read, h]
    · by_cases h' : a = k
      · simp [Memory.write, Memory.read, h']
      · simp [Memory.write, Memory.read, h, h', Ne.symm h', ih]

theorem Memory.read_write_other (m : Memory) (a a' : Nat) (b : Byte) (hne : a' ≠ a) : (m.write a b).read a' = m.read a' := by
  induction m with
  | nil => simp [Memory.write, Memory.read, Ne.symm hne]
  | cons c rest ih =>
    obtain ⟨k, v⟩ := c
    by_cases h : a < k
    · simp [Memory.write, Memory.read, h, Ne.symm hne]
    · by_cases h' : a = k
      · simp [Memory.write, Memory.read, h', (h' ▸ Ne.symm hne : k ≠ a')]
      · simp [Memory.write, Memory.read, h, h', ih]

theorem Memory.read_writeN_outside (m : Memory) (a a' : Nat) (bs : List Byte) (h : a' < a ∨ a + bs.length ≤ a') :
    (m.writeN a bs).read a' = m.read a' := by
  induction bs generalizing m a with
  | nil => rfl
  | cons b bs ih =>
    simp only [Memory.writeN, List.length_cons] at h ⊢
    rw [ih _ _ (by omega), Memory.read_write_other _ _ _ _ (by omega)]

theorem Memory.read_writeN_inside (m : Memory) (a k : Nat) (bs : List Byte) (h : k < bs.length) :
    (m.writeN a bs).read (a + k) = some bs[k] := by
  induction bs generalizing m a k with
  | nil => simp at h
  | cons b bs ih =>
    simp only [Memory.writeN]
    cases k with
    | zero => exact (Memory.read_writeN_outside (m.write a b) (a + 1) a bs (by omega)).trans (Memory.read_write_same m a b)
    | succ k =>
      have := ih (m.write a b) (a + 1) k (by simpa using h)
      rwa [Nat.add_right_comm, Nat.add_assoc] at this

theorem Memory.readN_eq (m : Memory) (a : Nat) (bs : List Byte) (h : ∀ k (hk : k < bs.length), m.read (a + k) = some bs[k]) :
    m.readN a bs.length = some bs := by
  induction bs generalizing a with
  | nil => rfl
  | cons b bs ih =>
    have h0 : m.read a = some b := h 0 (by simp)
    have ht := ih (a + 1) fun k hk => by
      have := h (k + 1) (by simpa using hk)
      rwa [← Nat.add_assoc, Nat.add_right_comm] at this
    simp [Memory.readN, h0, ht]

/-- Reading back what was just written. -/
theorem Memory.readN_writeN (m : Memory) (a : Nat) (bs : List Byte) : (m.writeN a bs).readN a bs.length = some bs :=
  Memory.readN_eq _ _ _ fun k hk => Memory.read_writeN_inside m a k bs hk

/-- An offset is read exactly when it is listed. -/
theorem Memory.read_isSome_iff (m : Memory) (a : Nat) : (m.read a).isSome ↔ a ∈ m.map Prod.fst := by
  induction m with
  | nil => simp [Memory.read]
  | cons c rest ih =>
    obtain ⟨k, v⟩ := c
    by_cases h : k = a
    · simp [Memory.read, h]
    · simp [Memory.read, h, ih, Ne.symm h]

/-- In a store in canonical form, exactly the offsets 0 to 63 are read. -/
theorem Memory.wf_read (m : Memory) (hm : m.wf) (a : Nat) : (m.read a).isSome ↔ a < 64 := by
  rw [Memory.read_isSome_iff, hm, List.mem_range]

theorem Memory.wf_readN (m : Memory) (hm : m.wf) (a n : Nat) (h : a + n ≤ 64) :
    ∃ bs, m.readN a n = some bs ∧ bs.length = n := by
  induction n generalizing a with
  | zero => exact ⟨[], rfl, rfl⟩
  | succ n ih =>
    obtain ⟨bs, hbs, hl⟩ := ih (a + 1) (by omega)
    obtain ⟨b, hb⟩ := Option.isSome_iff_exists.mp ((Memory.wf_read m hm a).mpr (by omega))
    exact ⟨b :: bs, by simp [Memory.readN, hb, hbs], by simp [hl]⟩

/-- A successful read of `n` bytes gives `n` bytes. -/
theorem Memory.readN_length (m : Memory) (a n : Nat) (bs : List Byte) (h : m.readN a n = some bs) : bs.length = n := by
  induction n generalizing a bs with
  | zero => cases h; rfl
  | succ n ih =>
    unfold Memory.readN at h
    split at h
    · rename_i hr
      cases h
      simp [ih _ _ hr]
    · cases h

/-- Its bytes are those of the offsets read, in order. -/
theorem Memory.readN_read (m : Memory) (a n : Nat) (bs : List Byte) (h : m.readN a n = some bs) (k : Nat) (hk : k < n) :
    m.read (a + k) = bs[k]? := by
  induction n generalizing a bs k with
  | zero => omega
  | succ n ih =>
    unfold Memory.readN at h
    split at h
    · rename_i b bs' hb hr
      cases h
      cases k with
      | zero => simpa using hb
      | succ k =>
        have := ih _ _ hr k (by omega)
        rw [Nat.add_assoc, Nat.add_comm 1 k] at this
        simpa using this
    · cases h

/-- In a list of rising offsets, writing a listed offset changes no offset. -/
theorem Memory.write_listed (m : Memory) (hs : (m.map Prod.fst).Pairwise (· < ·)) (a : Nat) (b : Byte)
    (ha : a ∈ m.map Prod.fst) : (m.write a b).map Prod.fst = m.map Prod.fst := by
  induction m with
  | nil => simp at ha
  | cons c rest ih =>
    obtain ⟨k, v⟩ := c
    simp only [List.map_cons, List.pairwise_cons, List.mem_cons] at hs ha
    rcases ha with rfl | ha
    · simp [Memory.write]
    · have hlt : k < a := hs.1 a ha
      simp [Memory.write, Nat.not_lt.mpr hlt.le, hlt.ne', ih hs.2 ha]

/-- A write inside the store keeps the canonical form. -/
theorem Memory.wf_write (m : Memory) (hm : m.wf) (a : Nat) (b : Byte) (ha : a < 64) : (m.write a b).wf := by
  have hs : (m.map Prod.fst).Pairwise (· < ·) := by rw [hm]; exact List.pairwise_lt_range
  have := Memory.write_listed m hs a b (by rw [hm]; exact List.mem_range.mpr ha)
  rw [Memory.wf, this, hm]

theorem Memory.wf_writeN (m : Memory) (hm : m.wf) (a : Nat) (bs : List Byte) (h : a + bs.length ≤ 64) : (m.writeN a bs).wf := by
  induction bs generalizing m a with
  | nil => exact hm
  | cons b bs ih =>
    simp only [List.length_cons] at h
    exact ih _ (Memory.wf_write m hm a b (by omega)) _ (by omega)

/-- The store at reset is in canonical form, whatever it holds. -/
theorem Memory.wf_atReset : Memory.atReset.wf := by
  simp [Memory.wf, Memory.atReset, Function.comp_def]

end Sys2Proof.Machine
end

