-- ==== Sys2Proof/Laws/PerInstr.lean ====
section
/-! SUPPORT. For every instruction: its encoding matches its row of the opcode table (30_encoding.md, the mask and match of
spec/opcode_table.json), whatever its operands and reserved bits. -/

namespace Sys2Proof.Laws

/-- The mask and match of an instruction's row, as the opcode table has them. -/
def rowOf : Instr → Nat × Nat
  | .init _ _ _ _ _ _ => (0xFF000000, 0x01000000)
  | .teardown _ _ _ _ => (0xFF000000, 0x02000000)
  | .readReg _ _ _ _ => (0xFF000000, 0x03000000)
  | .clear _ _ _ _ => (0xFF000000, 0x10000000)
  | .home _ _ _ _ => (0xFF000000, 0x11000000)
  | .setPos _ _ _ _ => (0xFF000000, 0x12000000)
  | .writeText _ _ _ _ => (0xFF000000, 0x13000000)
  | .writeTextAtLine _ _ _ _ => (0xFF000000, 0x14000000)
  | .setCursorStyle _ _ _ _ _ _ => (0xFF000000, 0x15000000)
  | .setDisplayOnChar _ _ _ _ _ => (0xFF000000, 0x16000000)
  | .setDisplayOnGraphic _ _ _ _ _ => (0xFF000000, 0x16000000)
  | .setBacklight _ _ _ _ _ => (0xFF000000, 0x17000000)
  | .setGlyph _ _ _ _ => (0xFF000000, 0x18000000)
  | .setAllGlyphs _ _ _ _ => (0xFF000000, 0x19000000)
  | .getGlyph _ _ _ _ => (0xFF000000, 0x1A000000)
  | .getAllGlyphs _ _ _ _ => (0xFF000000, 0x1B000000)
  | .writeCommandChar _ _ _ _ => (0xFF000000, 0x20000000)
  | .writeCommandGraphic _ _ _ _ => (0xFF000000, 0x20000000)
  | .writeDataChar _ _ _ _ => (0xFF000000, 0x21000000)
  | .writeDataGraphic _ _ _ _ => (0xFF000000, 0x21000000)
  | .writeDataStream _ _ _ _ => (0xFF000000, 0x22000000)
  | .cmdEntryMode _ _ _ _ _ _ => (0xFF000000, 0x30000000)
  | .cmdFunctionSet _ _ _ _ _ _ _ => (0xFF000000, 0x31000000)
  | .cmdSetCgram _ _ _ _ => (0xFF000000, 0x32000000)
  | .cmdSetDdram _ _ _ _ => (0xFF000000, 0x33000000)
  | .setContrast _ _ _ _ => (0xFF000000, 0x40000000)
  | .setAllPixelsOn _ _ _ _ _ => (0xFF000000, 0x41000000)
  | .setInverse _ _ _ _ _ => (0xFF000000, 0x42000000)
  | .hdClear => (0xFF, 0x01)
  | .hdHome _ => (0xFE, 0x02)
  | .hdEntryMode _ _ => (0xFC, 0x04)
  | .hdDisplayControl _ _ _ => (0xF8, 0x08)
  | .hdFunctionSet _ _ _ _ => (0xE0, 0x20)
  | .hdSetCgramAddr _ => (0xC0, 0x40)
  | .hdSetDdramAddr _ => (0x80, 0x80)
  | .nibIfaceReset => (0x0F, 0x03)
  | .nibIface4bit => (0x0F, 0x02)
  | .oledSetContrast _ => (0xFF, 0x81)
  | .oledAllOn _ => (0xFE, 0xA4)
  | .oledInverse _ => (0xFE, 0xA6)
  | .oledDisplay _ => (0xFE, 0xAE)

/-- The number whose bits the row of an encoding describes: the request word, the byte, the nibble, the first command byte. -/
def rowBits : PortWord → Nat
  | .req w _            => w.toNat
  | .hdCmd v            => v.toNat
  | .hdNibble n         => n.toNat
  | .oledCmd []         => 0
  | .oledCmd (c :: _)   => c.toNat

namespace RowMatches

/-- An instruction's encoding has the row's fixed bits. -/
def Statement (i : Instr) : Prop := rowBits (encode i) &&& (rowOf i).1 = (rowOf i).2

end RowMatches

/-- A request word under the mask of the OP field is its OP (R100). -/
theorem requestWord_and_opMask (o a b c : Byte) : (requestWord o a b c).toNat &&& 0xFF000000 = 16777216 * o.toNat := by
  have ho := o.isLt
  have hw := requestWord_toNat o a b c
  have ha := a.isLt
  have hb := b.isLt
  have hc := c.isLt
  have hd : (requestWord o a b c).toNat / 2 ^ 24 = o.toNat := by omega
  have hm : (0xFF000000 : Nat) = 0xFF <<< 24 := rfl
  apply Nat.eq_of_testBit_eq
  intro j
  rw [Nat.testBit_and, hm, Nat.testBit_shiftLeft, show 16777216 * o.toNat = o.toNat <<< 24 by rw [Nat.shiftLeft_eq, Nat.mul_comm],
    Nat.testBit_shiftLeft]
  by_cases hj : 24 ≤ j
  · have hj' : (requestWord o a b c).toNat.testBit j = o.toNat.testBit (j - 24) := by
      rw [← hd, Nat.testBit_div_two_pow, Nat.sub_add_cancel hj]
    rw [hj']
    by_cases h8 : j - 24 < 8
    · have h255 : (255 : Nat).testBit (j - 24) = true := by
        have : (255 : Nat) = 2 ^ 8 - 1 := rfl
        rw [this, Nat.testBit_two_pow_sub_one]
        simpa using h8
      simp [hj, h255]
    · have ho0 : o.toNat.testBit (j - 24) = false :=
        Nat.testBit_eq_false_of_lt (lt_of_lt_of_le ho (Nat.pow_le_pow_right (by omega) (by omega)))
      simp [ho0]
  · simp [hj]

theorem RowMatches.init (variant : Byte) (bl on : Bool) (resB : BitVec 6) (c : Byte) (p : List Byte) : RowMatches.Statement (.init variant bl on resB c p) :=
  requestWord_and_opMask _ _ _ _
theorem RowMatches.teardown (a b c : Byte) (p : List Byte) : RowMatches.Statement (.teardown a b c p) := requestWord_and_opMask _ _ _ _
theorem RowMatches.readReg (reg b c : Byte) (p : List Byte) : RowMatches.Statement (.readReg reg b c p) := requestWord_and_opMask _ _ _ _
theorem RowMatches.clear (a b c : Byte) (p : List Byte) : RowMatches.Statement (.clear a b c p) := requestWord_and_opMask _ _ _ _
theorem RowMatches.home (a b c : Byte) (p : List Byte) : RowMatches.Statement (.home a b c p) := requestWord_and_opMask _ _ _ _
theorem RowMatches.setPos (x y c : Byte) (p : List Byte) : RowMatches.Statement (.setPos x y c p) := requestWord_and_opMask _ _ _ _
theorem RowMatches.writeText (a b c : Byte) (p : List Byte) : RowMatches.Statement (.writeText a b c p) := requestWord_and_opMask _ _ _ _
theorem RowMatches.writeTextAtLine (row b c : Byte) (p : List Byte) : RowMatches.Statement (.writeTextAtLine row b c p) :=
  requestWord_and_opMask _ _ _ _
theorem RowMatches.setCursorStyle (visible blinking : Bool) (resA : BitVec 6) (b c : Byte) (p : List Byte) : RowMatches.Statement (.setCursorStyle visible blinking resA b c p) :=
  requestWord_and_opMask _ _ _ _
theorem RowMatches.setDisplayOnChar (on : Bool) (resA : BitVec 7) (b c : Byte) (p : List Byte) : RowMatches.Statement (.setDisplayOnChar on resA b c p) :=
  requestWord_and_opMask _ _ _ _
theorem RowMatches.setDisplayOnGraphic (on : Bool) (resA : BitVec 7) (b c : Byte) (p : List Byte) : RowMatches.Statement (.setDisplayOnGraphic on resA b c p) :=
  requestWord_and_opMask _ _ _ _
theorem RowMatches.setBacklight (on : Bool) (resA : BitVec 7) (b c : Byte) (p : List Byte) : RowMatches.Statement (.setBacklight on resA b c p) :=
  requestWord_and_opMask _ _ _ _
theorem RowMatches.setGlyph (index b c : Byte) (p : List Byte) : RowMatches.Statement (.setGlyph index b c p) :=
  requestWord_and_opMask _ _ _ _
theorem RowMatches.setAllGlyphs (a b c : Byte) (p : List Byte) : RowMatches.Statement (.setAllGlyphs a b c p) :=
  requestWord_and_opMask _ _ _ _
theorem RowMatches.getGlyph (index b c : Byte) (p : List Byte) : RowMatches.Statement (.getGlyph index b c p) :=
  requestWord_and_opMask _ _ _ _
theorem RowMatches.getAllGlyphs (a b c : Byte) (p : List Byte) : RowMatches.Statement (.getAllGlyphs a b c p) :=
  requestWord_and_opMask _ _ _ _
theorem RowMatches.writeCommandChar (byte b c : Byte) (p : List Byte) : RowMatches.Statement (.writeCommandChar byte b c p) :=
  requestWord_and_opMask _ _ _ _
theorem RowMatches.writeCommandGraphic (byte b c : Byte) (p : List Byte) : RowMatches.Statement (.writeCommandGraphic byte b c p) :=
  requestWord_and_opMask _ _ _ _
theorem RowMatches.writeDataChar (byte b c : Byte) (p : List Byte) : RowMatches.Statement (.writeDataChar byte b c p) :=
  requestWord_and_opMask _ _ _ _
theorem RowMatches.writeDataGraphic (byte b c : Byte) (p : List Byte) : RowMatches.Statement (.writeDataGraphic byte b c p) :=
  requestWord_and_opMask _ _ _ _
theorem RowMatches.writeDataStream (a b c : Byte) (p : List Byte) : RowMatches.Statement (.writeDataStream a b c p) :=
  requestWord_and_opMask _ _ _ _
theorem RowMatches.cmdEntryMode (inc shift : Bool) (resA : BitVec 6) (b c : Byte) (p : List Byte) : RowMatches.Statement (.cmdEntryMode inc shift resA b c p) :=
  requestWord_and_opMask _ _ _ _
theorem RowMatches.cmdFunctionSet (dl n f : Bool) (resA : BitVec 5) (b c : Byte) (p : List Byte) : RowMatches.Statement (.cmdFunctionSet dl n f resA b c p) :=
  requestWord_and_opMask _ _ _ _
theorem RowMatches.cmdSetCgram (offset b c : Byte) (p : List Byte) : RowMatches.Statement (.cmdSetCgram offset b c p) :=
  requestWord_and_opMask _ _ _ _
theorem RowMatches.cmdSetDdram (offset b c : Byte) (p : List Byte) : RowMatches.Statement (.cmdSetDdram offset b c p) :=
  requestWord_and_opMask _ _ _ _
theorem RowMatches.setContrast (value b c : Byte) (p : List Byte) : RowMatches.Statement (.setContrast value b c p) :=
  requestWord_and_opMask _ _ _ _
theorem RowMatches.setAllPixelsOn (on : Bool) (resA : BitVec 7) (b c : Byte) (p : List Byte) : RowMatches.Statement (.setAllPixelsOn on resA b c p) :=
  requestWord_and_opMask _ _ _ _
theorem RowMatches.setInverse (on : Bool) (resA : BitVec 7) (b c : Byte) (p : List Byte) : RowMatches.Statement (.setInverse on resA b c p) :=
  requestWord_and_opMask _ _ _ _
theorem RowMatches.hdClear : RowMatches.Statement (.hdClear) := rfl
theorem RowMatches.hdHome (x : Bool) : RowMatches.Statement (.hdHome x) := by revert x; unfold RowMatches.Statement; decide
theorem RowMatches.hdEntryMode (inc shift : Bool) : RowMatches.Statement (.hdEntryMode inc shift) :=
  by revert inc shift; unfold RowMatches.Statement; decide
theorem RowMatches.hdDisplayControl (d c b : Bool) : RowMatches.Statement (.hdDisplayControl d c b) :=
  by revert d c b; unfold RowMatches.Statement; decide
theorem RowMatches.hdFunctionSet (dl n f : Bool) (x : BitVec 2) : RowMatches.Statement (.hdFunctionSet dl n f x) :=
  by revert dl n f x; unfold RowMatches.Statement; decide
theorem RowMatches.hdSetCgramAddr (a : BitVec 6) : RowMatches.Statement (.hdSetCgramAddr a) :=
  by revert a; unfold RowMatches.Statement; decide
theorem RowMatches.hdSetDdramAddr (a : BitVec 7) : RowMatches.Statement (.hdSetDdramAddr a) :=
  by revert a; unfold RowMatches.Statement; decide
theorem RowMatches.nibIfaceReset : RowMatches.Statement (.nibIfaceReset) := rfl
theorem RowMatches.nibIface4bit : RowMatches.Statement (.nibIface4bit) := rfl
theorem RowMatches.oledSetContrast (value : Byte) : RowMatches.Statement (.oledSetContrast value) :=
  by simp [RowMatches.Statement, rowBits, encode, rowOf]
theorem RowMatches.oledAllOn (b : Bool) : RowMatches.Statement (.oledAllOn b) := by revert b; unfold RowMatches.Statement; decide
theorem RowMatches.oledInverse (b : Bool) : RowMatches.Statement (.oledInverse b) := by revert b; unfold RowMatches.Statement; decide
theorem RowMatches.oledDisplay (b : Bool) : RowMatches.Statement (.oledDisplay b) := by revert b; unfold RowMatches.Statement; decide

end Sys2Proof.Laws
end

