-- ==== Sys2Proof/Laws/Step.lean ====
section
/-! SUPPORT. What a step can do, said once. -/

namespace Sys2Proof.Machine

/-- Everything a step can do when it answers a next state: nothing on an empty port, the illegal-OP error, or the decoded instruction with its
word taken from the port. -/
theorem step_next (s t : State) (h : step s = .next t) :
    (s.port = [] ∧ t = s) ∨
    ∃ w rest, s.port = w :: rest ∧
      (t = raise .illegalOp { s with port := rest } ∨
       ∃ i, decode s.family w = .ok i ∧ exec i { s with port := rest } = .next t) := by
  unfold step fetch at h
  cases hp : s.port with
  | nil =>
    simp only [hp, Host.Outcome.next.injEq] at h
    exact .inl ⟨rfl, h.symm⟩
  | cons w rest =>
    refine .inr ⟨w, rest, rfl, ?_⟩
    simp only [hp] at h
    split at h
    · rename_i i hd
      exact .inr ⟨i, hd, h⟩
    · unfold undecoded at h
      split at h <;> cases h
      exact .inl rfl

/-- A step with a request at the head of the port: the illegal-OP error, or the instruction it decodes to. -/
theorem step_request {s t : State} {w : BitVec 32} {p : List Byte} {rest : List PortWord} (hp : s.port = .req w p :: rest)
    (h : step s = .next t) :
    (t = raise .illegalOp { s with port := rest } ∧ ∀ i, decode s.family (.req w p) ≠ .ok i) ∨
    ∃ i, decode s.family (.req w p) = .ok i ∧ exec i { s with port := rest } = .next t := by
  unfold step fetch at h
  simp only [hp] at h
  split at h
  · exact .inr ⟨_, ‹_›, h⟩
  · rename_i hd
    refine .inl ⟨?_, by simp [hd]⟩
    unfold undecoded at h
    split at h <;> cases h
    rfl

theorem fieldOp_toNat (w : BitVec 32) : w.toNat / 2 ^ 24 = (fieldOp w).toNat := by
  simp [fieldOp, BitVec.extractLsb', Nat.shiftRight_eq_div_pow]
  omega

/-- The OP of a request that decodes to READ_REG, GET_GLYPH or GET_ALL_GLYPHS (30_encoding.md R102). -/
theorem decode_request_op {fam : Family} {w : BitVec 32} {p : List Byte} {i : Instr} (h : decode fam (.req w p) = .ok i) :
    i.isRequest = true ∧ (i.isReadReg = true ↔ w.toNat / 2 ^ 24 = 0x03) ∧
    ((∃ a b c q, i = .getGlyph a b c q) ↔ w.toNat / 2 ^ 24 = 0x1A) ∧
    ((∃ a b c q, i = .getAllGlyphs a b c q) ↔ w.toNat / 2 ^ 24 = 0x1B) := by
  rw [fieldOp_toNat]
  simp only [decode, decodeRequest] at h
  split at h <;> (try split at h) <;> cases h <;> simp_all [Instr.isRequest, Instr.isReadReg]

/-- A request that does not decode has the OP of none of them. -/
theorem undecoded_request_op {fam : Family} {w : BitVec 32} {p : List Byte} (h : ∀ i, decode fam (.req w p) ≠ .ok i) :
    w.toNat / 2 ^ 24 ≠ 0x03 ∧ w.toNat / 2 ^ 24 ≠ 0x1A ∧ w.toNat / 2 ^ 24 ≠ 0x1B := by
  rw [fieldOp_toNat]
  simp only [decode, decodeRequest] at h
  refine ⟨?_, ?_, ?_⟩ <;> intro hq <;> simp [hq] at h

end Sys2Proof.Machine
end

