-- ==== Sys2Proof/Tests/Slice0.lean ====
section
/-! SUPPORT. The model's own tests. The expected results are those of 95_test_vectors.md, cited by their label, or worked out by hand from
the rule cited. -/

namespace Sys2Proof.Tests

open Sys2Proof.Machine

-- ---------------------------------------------------------------- test states

/-- Parameters with the default masks and control codes (00_scope.md R11, R14); the durations are arbitrary test values, the graphic ones those
of 95_test_vectors.md P3. -/
def params (f : Family) : Params where
  family     := f
  busAddr    := 0x27
  maskRw     := 0x02
  maskEn     := 0x04
  maskBl     := 0x08
  tPowerOn   := 90
  tReset1    := 80
  tReset2    := 70
  tReset3    := 60
  tSettle4   := 50
  tLatch     := 10
  tProc      := 20
  tClear     := 40
  tHome      := 30
  maxPayload := 64
  ctrlCmd    := 0x80
  ctrlData1  := 0xC0
  ctrlStream := 0x40
  gfxWidth   := 128
  gfxHeight  := 64
  gfxInitSeq := [0xA8, 0x3F]

/-- A store whose byte at offset k is k (95_test_vectors.md V-8d). -/
def glyphs : Memory := (List.range 64).map fun k => (k, BitVec.ofNat 8 k)

/-- An environment that acknowledges 400 transactions and serves every wait. -/
def acking : Env := { answers := List.replicate 400 .ok, draws := 0, waits := none }

/-- An environment whose transport acknowledges `k` transactions and answers `a` to the next. -/
def answering (k : Nat) (a : BusAnswer) : Env := { answers := List.replicate k .ok ++ [a], draws := 0, waits := none }

/-- A fresh block of a family, with a known store. -/
def fresh (f : Family) : State := { State.resetWith (params f) with store := glyphs, env := acking }

/-- A READY character-family block with the geometry of a variant, the backlight on and the flags given as the FLAGS register has them. -/
def readyChar (variant w h : Byte) (r1 r2 r3 : BitVec 7) (d c b bl : Bool) : State :=
  { fresh .char with
    lifecycle := .ready, variant := variant, width := w, height := h, lineOffset1 := r1, lineOffset2 := r2, lineOffset3 := r3,
    displayOn := d, cursorOn := c, blinkOn := b, backlight := bl }

/-- READY 20×4 with FLAGS 0x0C. -/
def ready4 : State := readyChar 0x02 20 4 0x40 0x14 0x54 true false false true
/-- READY 16×2 with FLAGS 0x0C. -/
def ready2 : State := readyChar 0x00 16 2 0x40 0x00 0x00 true false false true
/-- READY 40×2 with FLAGS 0x0C. -/
def ready40 : State := readyChar 0x01 40 2 0x40 0x00 0x00 true false false true
/-- A READY graphic-family block. -/
def readyG : State :=
  { fresh .graphic with lifecycle := .ready, variant := 0x80, width := 128, height := 64, displayOn := true }
/-- The same session after TEARDOWN. -/
def releasedChar : State := { ready4 with lifecycle := .released, handleHeld := false, trace := [.release] }
/-- A session whose INIT failed. -/
def failedChar : State := { ready4 with lifecycle := .failed, busDesync := true, lastStatus := 0x08 }

/-- The bytes of each transaction of a trace, in order. -/
def busBytes (evs : List Event) : List (List Byte) :=
  evs.filterMap fun e =>
    match e with
    | .bus _ bytes => some bytes
    | .wait _ _    => none
    | .release     => none

/-- One byte a transaction. -/
def singles (bytes : List Byte) : List (List Byte) := bytes.map fun b => [b]

/-- What one step answers to a port word: the status of the response, its data, and the transactions of the step. -/
def report (s : State) (w : PortWord) : Option (Option Status × List Byte × List (List Byte)) :=
  match step { s with port := [w], trace := [], response := none } with
  | .next t    => some (t.response.map (fun r => r.status), (t.response.map fun r => r.data).getD [], busBytes t.trace)
  | .fault _   => none
  | .refused _ => none

/-- The state after one step with a port word. -/
def stepped (s : State) (w : PortWord) : State :=
  match step { s with port := [w], trace := [], response := none } with
  | .next t    => t
  | .fault _   => s
  | .refused _ => s

/-- Answered OK, with these single-byte transactions. -/
def okSends (bytes : List Byte) : Option (Option Status × List Byte × List (List Byte)) := some (some .ok, [], singles bytes)

/-- Answered with an error, with no transaction. -/
def errs (e : Status) : Option (Option Status × List Byte × List (List Byte)) := some (some e, [], [])

-- ---------------------------------------------------------------- WellFormed refuses an ill-formed term for each check

-- the reserved bits (30_encoding.md R105), row by row where the fields differ
theorem test_wf_accepts_init : (Instr.init 0x02 true true 0 0 []).wellFormed (params .char) = true := by decide
theorem test_wf_refuses_init_reservedB : (Instr.init 0x02 true true 1 0 []).wellFormed (params .char) = false := by decide
theorem test_wf_refuses_init_c : (Instr.init 0x02 true true 0 1 []).wellFormed (params .char) = false := by decide
theorem test_wf_refuses_teardown_a : (Instr.teardown 1 0 0 []).wellFormed (params .char) = false := by decide
theorem test_wf_refuses_readReg_b : (Instr.readReg 0 1 0 []).wellFormed (params .char) = false := by decide
theorem test_wf_refuses_setPos_c : (Instr.setPos 0 0 1 []).wellFormed (params .char) = false := by decide
theorem test_wf_refuses_cursor_reservedA : (Instr.setCursorStyle true true 1 0 0 []).wellFormed (params .char) = false := by decide
theorem test_wf_refuses_displayOn_reservedA : (Instr.setDisplayOnChar true 1 0 0 []).wellFormed (params .char) = false := by decide
theorem test_wf_refuses_functionSet_reservedA :
    (Instr.cmdFunctionSet false true false 1 0 0 []).wellFormed (params .char) = false := by decide
theorem test_wf_refuses_home_dontCare : (Instr.hdHome true).wellFormed (params .char) = false := by decide
theorem test_wf_refuses_functionSet_dontCare : (Instr.hdFunctionSet false true false 3).wellFormed (params .char) = false := by decide
-- the operand values (R104), each at the first value outside its range
theorem test_wf_refuses_unsupported_variant : (Instr.init 0x03 true true 0 0 []).wellFormed (params .char) = false := by decide
theorem test_wf_refuses_variant_of_other_family : (Instr.init 0x80 true true 0 0 []).wellFormed (params .char) = false := by decide
theorem test_wf_refuses_register_0A : (Instr.readReg 0x0A 0 0 []).wellFormed (params .char) = false := by decide
theorem test_wf_refuses_register_80 : (Instr.readReg 0x80 0 0 []).wellFormed (params .char) = false := by decide
theorem test_wf_refuses_setGlyph_8 : (Instr.setGlyph 8 0 0 (List.replicate 8 0)).wellFormed (params .char) = false := by decide
theorem test_wf_refuses_getGlyph_8 : (Instr.getGlyph 8 0 0 []).wellFormed (params .char) = false := by decide
theorem test_wf_refuses_functionSet_8bit : (Instr.cmdFunctionSet true true false 0 0 0 []).wellFormed (params .char) = false := by decide
theorem test_wf_refuses_cgram_40 : (Instr.cmdSetCgram 0x40 0 0 []).wellFormed (params .char) = false := by decide
theorem test_wf_refuses_ddram_80 : (Instr.cmdSetDdram 0x80 0 0 []).wellFormed (params .char) = false := by decide
theorem test_wf_refuses_hdFunctionSet_8bit : (Instr.hdFunctionSet true true false 0).wellFormed (params .char) = false := by decide
-- LEN (R102, R13)
theorem test_wf_refuses_setGlyph_3_bytes : (Instr.setGlyph 3 0 0 [1, 2, 3]).wellFormed (params .char) = false := by decide
theorem test_wf_refuses_setAllGlyphs_63_bytes :
    (Instr.setAllGlyphs 0 0 0 (List.replicate 63 0)).wellFormed (params .char) = false := by decide
theorem test_wf_refuses_long_text : (Instr.writeText 0 0 0 (List.replicate 65 0)).wellFormed (params .char) = false := by decide
theorem test_wf_refuses_long_text_at_line :
    (Instr.writeTextAtLine 0 0 0 (List.replicate 65 0)).wellFormed (params .char) = false := by decide
theorem test_wf_refuses_empty_stream : (Instr.writeDataStream 0 0 0 []).wellFormed (params .graphic) = false := by decide
theorem test_wf_refuses_clear_payload : (Instr.clear 0 0 0 [0]).wellFormed (params .char) = false := by decide

-- ---------------------------------------------------------------- every constructor's word, written out from the spec's encoding

-- 30_encoding.md R100, R102: OP, A, B, C from the most significant byte down
theorem test_decode_init : decode .char (.req 0x01020100 []) = .ok (.init 0x02 true false 0 0 []) := by decide
theorem test_decode_teardown : decode .char (.req 0x02000000 []) = .ok (.teardown 0 0 0 []) := by decide
theorem test_decode_readReg : decode .graphic (.req 0x03090000 []) = .ok (.readReg 0x09 0 0 []) := by decide
theorem test_decode_clear : decode .char (.req 0x10010000 []) = .ok (.clear 1 0 0 []) := by decide
theorem test_decode_home : decode .char (.req 0x11000000 []) = .ok (.home 0 0 0 []) := by decide
theorem test_decode_setPos : decode .char (.req 0x12000100 []) = .ok (.setPos 0 1 0 []) := by decide
theorem test_decode_writeText : decode .char (.req 0x13000000 [0x48]) = .ok (.writeText 0 0 0 [0x48]) := by decide
theorem test_decode_writeTextAtLine : decode .char (.req 0x14020000 [0x48]) = .ok (.writeTextAtLine 2 0 0 [0x48]) := by decide
theorem test_decode_setCursorStyle : decode .char (.req 0x15020000 []) = .ok (.setCursorStyle false true 0 0 0 []) := by decide
theorem test_decode_setDisplayOnChar : decode .char (.req 0x16010000 []) = .ok (.setDisplayOnChar true 0 0 0 []) := by decide
theorem test_decode_setDisplayOnGraphic : decode .graphic (.req 0x16010000 []) = .ok (.setDisplayOnGraphic true 0 0 0 []) := by decide
theorem test_decode_setBacklight : decode .char (.req 0x17020000 []) = .ok (.setBacklight false 1 0 0 []) := by decide
theorem test_decode_setGlyph : decode .char (.req 0x18030000 [1]) = .ok (.setGlyph 3 0 0 [1]) := by decide
theorem test_decode_setAllGlyphs : decode .char (.req 0x19000000 []) = .ok (.setAllGlyphs 0 0 0 []) := by decide
theorem test_decode_getGlyph : decode .char (.req 0x1A070000 []) = .ok (.getGlyph 7 0 0 []) := by decide
theorem test_decode_getAllGlyphs : decode .char (.req 0x1B000000 []) = .ok (.getAllGlyphs 0 0 0 []) := by decide
theorem test_decode_writeCommandChar : decode .char (.req 0x20380000 []) = .ok (.writeCommandChar 0x38 0 0 []) := by decide
theorem test_decode_writeCommandGraphic : decode .graphic (.req 0x20AF0000 []) = .ok (.writeCommandGraphic 0xAF 0 0 []) := by decide
theorem test_decode_writeDataChar : decode .char (.req 0x21480100 []) = .ok (.writeDataChar 0x48 1 0 []) := by decide
theorem test_decode_writeDataGraphic : decode .graphic (.req 0x213C0000 []) = .ok (.writeDataGraphic 0x3C 0 0 []) := by decide
theorem test_decode_writeDataStream : decode .graphic (.req 0x22000000 [0xFF]) = .ok (.writeDataStream 0 0 0 [0xFF]) := by decide
theorem test_decode_cmdEntryMode : decode .char (.req 0x30020000 []) = .ok (.cmdEntryMode true false 0 0 0 []) := by decide
theorem test_decode_cmdFunctionSet : decode .char (.req 0x31060000 []) = .ok (.cmdFunctionSet true true false 0 0 0 []) := by decide
theorem test_decode_cmdSetCgram : decode .char (.req 0x32180000 []) = .ok (.cmdSetCgram 0x18 0 0 []) := by decide
theorem test_decode_cmdSetDdram : decode .char (.req 0x33540000 []) = .ok (.cmdSetDdram 0x54 0 0 []) := by decide
theorem test_decode_setContrast : decode .graphic (.req 0x40CF0000 []) = .ok (.setContrast 0xCF 0 0 []) := by decide
theorem test_decode_setAllPixelsOn : decode .graphic (.req 0x41010000 []) = .ok (.setAllPixelsOn true 0 0 0 []) := by decide
theorem test_decode_setInverse : decode .graphic (.req 0x42030000 []) = .ok (.setInverse true 1 0 0 []) := by decide
-- R111, R222 and R113: the bytes bit by bit
theorem test_decode_hdClear : decode .char (.hdCmd 0b00000001) = .ok .hdClear := by decide
theorem test_decode_hdHome : decode .char (.hdCmd 0b00000010) = .ok (.hdHome false) := by decide
theorem test_decode_hdEntryMode : decode .char (.hdCmd 0b00000110) = .ok (.hdEntryMode true false) := by decide
theorem test_decode_hdDisplayControl : decode .char (.hdCmd 0b00001110) = .ok (.hdDisplayControl true true false) := by decide
theorem test_decode_hdFunctionSet : decode .char (.hdCmd 0b00101001) = .ok (.hdFunctionSet false true false 1) := by decide
theorem test_decode_hdSetCgramAddr : decode .char (.hdCmd 0b01011000) = .ok (.hdSetCgramAddr 0x18) := by decide
theorem test_decode_hdSetDdramAddr : decode .char (.hdCmd 0b11010100) = .ok (.hdSetDdramAddr 0x54) := by decide
theorem test_decode_nibIfaceReset : decode .char (.hdNibble 0b0011) = .ok .nibIfaceReset := by decide
theorem test_decode_nibIface4bit : decode .char (.hdNibble 0b0010) = .ok .nibIface4bit := by decide
theorem test_decode_oledSetContrast : decode .graphic (.oledCmd [0b10000001, 0xCF]) = .ok (.oledSetContrast 0xCF) := by decide
theorem test_decode_oledAllOn : decode .graphic (.oledCmd [0b10100101]) = .ok (.oledAllOn true) := by decide
theorem test_decode_oledInverse : decode .graphic (.oledCmd [0b10100110]) = .ok (.oledInverse false) := by decide
theorem test_decode_oledDisplay : decode .graphic (.oledCmd [0b10101111]) = .ok (.oledDisplay true) := by decide
-- refused by name: R103, and bytes the encoder does not produce (41_command_encoder.md R153)
theorem test_decode_refuses_op43 : decode .char (.req 0x43000000 []) = .error (.illegalOp 0x43) := by decide
theorem test_decode_refuses_shift : decode .char (.hdCmd 0x1C) = .error (.notHd44780Command 0x1C) := by decide
theorem test_decode_refuses_nibble : decode .char (.hdNibble 0x1) = .error (.notInterfaceNibble 0x1) := by decide
theorem test_decode_refuses_oled : decode .graphic (.oledCmd [0xA8]) = .error (.notOledCommand [0xA8]) := by decide
-- R107, as 95_test_vectors.md writes `CMD_FUNCTION_SET dl=0, n=1, f=0`
theorem test_text_functionSet :
    (Instr.cmdFunctionSet false true false 0 0 0 []).textOperands = [("dl", 0), ("n", 1), ("f", 0)] := by decide
-- the host's numbering of the opcode table (log entry 8)
theorem test_tableWord_init : decodeTableWord 32 0x01000000 = some (.init 0 false false 0 0 []) := by decide
theorem test_tableWord_clear : decodeTableWord 8 0x01 = some .hdClear := by decide

-- ---------------------------------------------------------------- single steps, from 95_test_vectors.md

-- V-4.4: the 42 transactions of INIT, and its 35 waits in their order of kinds
theorem test_init_char_sends : report (fresh .char) (.req 0x01020300 []) = okSends
    [0x38, 0x3C, 0x38, 0x38, 0x3C, 0x38, 0x38, 0x3C, 0x38, 0x28, 0x2C, 0x28, 0x28, 0x2C, 0x28, 0x88, 0x8C, 0x88, 0x08, 0x0C, 0x08, 0xC8,
     0xCC, 0xC8, 0x08, 0x0C, 0x08, 0x68, 0x6C, 0x68, 0x08, 0x0C, 0x08, 0x18, 0x1C, 0x18, 0x08, 0x0C, 0x08, 0x28, 0x2C, 0x28] := by decide
-- P3 step 1
theorem test_init_graphic_sends : report (fresh .graphic) (.req 0x01800200 []) =
    some (some .ok, [], [[0x80, 0xA8], [0x80, 0x3F], [0x80, 0xAF]]) := by decide
-- P4 steps 6 and 8
theorem test_teardown_releases : (stepped ready4 (.req 0x02000000 [])).trace = [.release] := by decide
theorem test_teardown_twice : (stepped releasedChar (.req 0x02000000 [])).trace = [] := by decide
-- P1 step 4, E18
theorem test_readReg_lineOffset2 : report ready4 (.req 0x03060000 []) = some (some .ok, [0x14], []) := by decide
theorem test_readReg_status_released : report releasedChar (.req 0x03000000 []) = some (some .ok, [0x03], []) := by decide
-- L2.4
theorem test_clear : report ready4 (.req 0x10000000 []) =
    okSends [0x08, 0x0C, 0x08, 0x18, 0x1C, 0x18, 0x08, 0x0C, 0x08, 0x28, 0x2C, 0x28] := by decide
theorem test_clear_reserved : report ready4 (.req 0x10010000 []) = errs .badOperand := by decide
theorem test_home_waits : (stepped ready4 (.req 0x11000000 [])).trace.getLast? = some (.wait .home 30) := by decide
-- V-8b
theorem test_setPos_19_3 : report ready4 (.req 0x12130300 []) = okSends [0xE8, 0xEC, 0xE8, 0x78, 0x7C, 0x78] := by decide
theorem test_setPos_0_4 : report ready4 (.req 0x12000400 []) = errs .badPosition := by decide
-- L2.4
theorem test_writeText_HI : report ready4 (.req 0x13000000 [0x48, 0x49]) =
    okSends [0x49, 0x4D, 0x49, 0x89, 0x8D, 0x89, 0x49, 0x4D, 0x49, 0x99, 0x9D, 0x99] := by decide
theorem test_writeText_too_long : report ready4 (.req 0x13000000 (List.replicate 65 0x41)) = errs .badLength := by decide
-- V-A
theorem test_writeTextAtLine_HELLO : report ready4 (.req 0x14020000 [0x48, 0x45, 0x4C, 0x4C, 0x4F]) = okSends
    [0x98, 0x9C, 0x98, 0x48, 0x4C, 0x48, 0x49, 0x4D, 0x49, 0x89, 0x8D, 0x89, 0x49, 0x4D, 0x49, 0x59, 0x5D, 0x59, 0x49, 0x4D, 0x49, 0xC9,
     0xCD, 0xC9, 0x49, 0x4D, 0x49, 0xC9, 0xCD, 0xC9, 0x49, 0x4D, 0x49, 0xF9, 0xFD, 0xF9] := by decide
-- L2.4
theorem test_setCursorStyle : report ready4 (.req 0x15020000 []) = okSends [0x08, 0x0C, 0x08, 0xD8, 0xDC, 0xD8] := by decide
theorem test_setCursorStyle_flags : flagsRegister (stepped ready4 (.req 0x15020000 [])) = 0x0D := by decide
-- V-8e
theorem test_setDisplayOnChar : report (readyChar 0x02 20 4 0x40 0x14 0x54 false true true true) (.req 0x16010000 []) =
    okSends [0x08, 0x0C, 0x08, 0xF8, 0xFC, 0xF8] := by decide
-- L2.5
theorem test_setDisplayOnGraphic : report readyG (.req 0x16000000 []) = some (some .ok, [], [[0x80, 0xAE]]) := by decide
theorem test_setDisplayOnGraphic_flag : (stepped readyG (.req 0x16000000 [])).displayOn = false := by decide
-- L2.3
theorem test_setBacklight_off : report ready4 (.req 0x17000000 []) = okSends [0x00] := by decide
theorem test_setBacklight_reserved : report ready4 (.req 0x17020000 []) = errs .badOperand := by decide
-- V-8c, V-B
theorem test_setGlyph_sends : report ready4 (.req 0x18030000 [0x00, 0x0A, 0x1F, 0x1F, 0x0E, 0x04, 0x00, 0x00]) = okSends
    [0x58, 0x5C, 0x58, 0x88, 0x8C, 0x88, 0x09, 0x0D, 0x09, 0x09, 0x0D, 0x09, 0x09, 0x0D, 0x09, 0xA9, 0xAD, 0xA9, 0x19, 0x1D, 0x19, 0xF9,
     0xFD, 0xF9, 0x19, 0x1D, 0x19, 0xF9, 0xFD, 0xF9, 0x09, 0x0D, 0x09, 0xE9, 0xED, 0xE9, 0x09, 0x0D, 0x09, 0x49, 0x4D, 0x49, 0x09, 0x0D,
     0x09, 0x09, 0x0D, 0x09, 0x09, 0x0D, 0x09, 0x09, 0x0D, 0x09] := by decide
theorem test_setGlyph_index_first : report ready4 (.req 0x18080000 [1, 2, 3]) = errs .badIndex := by decide
-- V-8d, GET_GLYPH of L2.4
theorem test_setAllGlyphs_63 : report ready4 (.req 0x19000000 (List.replicate 63 0)) = errs .badLength := by decide
theorem test_getGlyph_7 : report ready4 (.req 0x1A070000 []) =
    some (some .ok, [0x38, 0x39, 0x3A, 0x3B, 0x3C, 0x3D, 0x3E, 0x3F], []) := by decide
theorem test_getAllGlyphs_len1 : report ready4 (.req 0x1B000000 [0]) = errs .badLength := by decide
-- L2.3
theorem test_writeCommandChar : report ready4 (.req 0x20380000 []) = okSends [0x38, 0x3C, 0x38, 0x88, 0x8C, 0x88] := by decide
theorem test_writeDataChar : report ready4 (.req 0x21480000 []) = okSends [0x49, 0x4D, 0x49, 0x89, 0x8D, 0x89] := by decide
-- L2.5
theorem test_writeCommandGraphic : report readyG (.req 0x20AF0000 []) = some (some .ok, [], [[0x80, 0xAF]]) := by decide
theorem test_writeDataGraphic : report readyG (.req 0x213C0000 []) = some (some .ok, [], [[0xC0, 0x3C]]) := by decide
theorem test_writeDataStream_one : report readyG (.req 0x22000000 [0x55]) = some (some .ok, [], [[0x40], [0x55]]) := by decide
theorem test_writeDataStream_empty : report readyG (.req 0x22000000 []) = errs .badLength := by decide
-- L2.2
theorem test_cmdEntryMode : report ready4 (.req 0x30010000 []) = okSends [0x08, 0x0C, 0x08, 0x58, 0x5C, 0x58] := by decide
theorem test_cmdFunctionSet : report ready4 (.req 0x31010000 []) = okSends [0x28, 0x2C, 0x28, 0x48, 0x4C, 0x48] := by decide
theorem test_cmdFunctionSet_8bit : report ready4 (.req 0x31060000 []) = errs .unsupportedConfig := by decide
theorem test_cmdSetCgram : report ready4 (.req 0x323F0000 []) = okSends [0x78, 0x7C, 0x78, 0xF8, 0xFC, 0xF8] := by decide
theorem test_cmdSetDdram : report ready2 (.req 0x33300000 []) = okSends [0xB8, 0xBC, 0xB8, 0x08, 0x0C, 0x08] := by decide
theorem test_cmdSetDdram_80 : report ready4 (.req 0x33800000 []) = errs .badOperand := by decide
-- V-C, L2.5
theorem test_setContrast : report readyG (.req 0x40CF0000 []) = some (some .ok, [], [[0x80, 0x81], [0x80, 0xCF]]) := by decide
theorem test_setContrast_char : report (fresh .char) (.req 0x40010000 []) = errs .unsupportedOp := by decide
theorem test_setAllPixelsOn : report readyG (.req 0x41010000 []) = some (some .ok, [], [[0x80, 0xA5]]) := by decide
theorem test_setInverse : report readyG (.req 0x42000000 []) = some (some .ok, [], [[0x80, 0xA6]]) := by decide
-- the bare controller commands: the frames of L2.2 and L2.3 for the same bytes, and V-4.4 for the nibbles; no response (log entry 7)
theorem test_hdClear : report ready4 (.hdCmd 0x01) = some (none, [], singles [0x08, 0x0C, 0x08, 0x18, 0x1C, 0x18]) := by decide
theorem test_hdHome_dontCare : report ready4 (.hdCmd 0x03) = some (none, [], singles [0x08, 0x0C, 0x08, 0x28, 0x2C, 0x28]) := by decide
theorem test_hdEntryMode : report ready4 (.hdCmd 0x06) = some (none, [], singles [0x08, 0x0C, 0x08, 0x68, 0x6C, 0x68]) := by decide
theorem test_hdDisplayControl : report ready4 (.hdCmd 0x0F) = some (none, [], singles [0x08, 0x0C, 0x08, 0xF8, 0xFC, 0xF8]) := by decide
theorem test_hdFunctionSet : report ready4 (.hdCmd 0x28) = some (none, [], singles [0x28, 0x2C, 0x28, 0x88, 0x8C, 0x88]) := by decide
theorem test_hdFunctionSet_8bit : report ready4 (.hdCmd 0x38) = errs .unsupportedConfig := by decide
theorem test_hdSetCgramAddr : report ready4 (.hdCmd 0x58) = some (none, [], singles [0x58, 0x5C, 0x58, 0x88, 0x8C, 0x88]) := by decide
theorem test_hdSetDdramAddr : report ready4 (.hdCmd 0xD4) = some (none, [], singles [0xD8, 0xDC, 0xD8, 0x48, 0x4C, 0x48]) := by decide
theorem test_nibIfaceReset : report ready4 (.hdNibble 0x3) = some (none, [], singles [0x38, 0x3C, 0x38]) := by decide
theorem test_nibIface4bit : report ready4 (.hdNibble 0x2) = some (none, [], singles [0x28, 0x2C, 0x28]) := by decide
theorem test_oledSetContrast : report readyG (.oledCmd [0x81, 0xCF]) = some (none, [], [[0x80, 0x81], [0x80, 0xCF]]) := by decide
theorem test_oledAllOn : report readyG (.oledCmd [0xA5]) = some (none, [], [[0x80, 0xA5]]) := by decide
theorem test_oledInverse : report readyG (.oledCmd [0xA6]) = some (none, [], [[0x80, 0xA6]]) := by decide
theorem test_oledDisplay : report readyG (.oledCmd [0xAF]) = some (none, [], [[0x80, 0xAF]]) := by decide
-- L2.6: the order of the checks (E2, E3, E7, E8, E16, E17)
theorem test_order_E2 : report (fresh .char) (.req 0x40010000 []) = errs .unsupportedOp := by decide
theorem test_order_E7 : report (fresh .char) (.req 0x01030400 []) = errs .badOperand := by decide
theorem test_order_E8 : report (fresh .char) (.req 0x01030300 [0]) = errs .unsupportedConfig := by decide
theorem test_order_E16 : report releasedChar (.req 0x00000000 []) = errs .illegalOp := by decide
theorem test_order_E17 : report releasedChar (.req 0x40010000 []) = errs .released := by decide
-- L2.7 T1: the fourth transaction fails
theorem test_transport_T1 : report { ready4 with env := answering 3 (.fail 7) } (.req 0x15010000 []) =
    some (some .transport, [], singles [0x08, 0x0C, 0x08, 0xE8]) := by decide
theorem test_transport_T1_status :
    statusRegister (stepped { ready4 with env := answering 3 (.fail 7) } (.req 0x15010000 [])) = 0x05 := by decide
-- L2.7 T2 and T3: INIT fails before and after READY
theorem test_transport_T2 :
    statusRegister (stepped { fresh .char with env := answering 4 (.fail 7) } (.req 0x01020300 [])) = 0x06 := by decide
theorem test_transport_T3 :
    statusRegister (stepped { fresh .char with env := answering 36 (.fail 7) } (.req 0x01020300 [])) = 0x05 := by decide

-- ---------------------------------------------------------------- witnesses: what meets the hypotheses of each obligation

/-- The state an instruction leaves; the state before, if it leaves none. -/
def left (i : Instr) (s : State) : State :=
  match exec i s with
  | .next t    => t
  | .fault _   => s
  | .refused _ => s

/-- Whether exec answers a next state. -/
def runs (i : Instr) (s : State) : Bool :=
  match exec i s with
  | .next _    => true
  | .fault _   => false
  | .refused _ => false

theorem exec_left (i : Instr) (s : State) (h : runs i s = true) : exec i s = .next (left i s) := by
  unfold runs at h
  unfold left
  split at h <;> simp_all

/-- The state a step leaves; the state before, if it leaves none. -/
def leftByStep (s : State) : State :=
  match step s with
  | .next t    => t
  | .fault _   => s
  | .refused _ => s

theorem acking_acks (n : Nat) (h : n ≤ 400) : acking.acksBus n := fun k hk => by
  have : (List.replicate 400 BusAnswer.ok)[k]? = some .ok := by
    rw [List.getElem?_replicate, if_pos (by omega)]
  simp only [Env.answer, acking, this]

theorem acking_serves (n : Nat) : acking.servesWaits n := Nat.le_refl n

/-- The environment fails exactly at transaction `k`. -/
theorem answering_at (k : Nat) (a : BusAnswer) : (answering k a).acksBus k ∧ (answering k a).answer k = a := by
  constructor
  · intro j hj
    have : (List.replicate k BusAnswer.ok ++ [a])[j]? = some .ok := by
      rw [List.getElem?_append_left (by simpa using hj), List.getElem?_replicate, if_pos hj]
    simp only [Env.answer, answering, this]
  · have : (List.replicate k BusAnswer.ok ++ [a])[k]? = some a := by
      rw [List.getElem?_append_right (by simp)]; simp
    simp only [Env.answer, answering, this]

theorem glyphs_wf : glyphs.wf := by decide

/-- The invariant holds of a READY 20×4 session. -/
theorem ready4_inv : BlockInv ready4 where
  params   := by decide
  store    := glyphs_wf
  handle   := by decide
  status   := by decide
  geometry := .inr ⟨⟨.char, 20, 4, 0x00, 0x40, 0x14, 0x54⟩, by decide, rfl, rfl, rfl, rfl, rfl, rfl⟩
  accepted := fun _ => ⟨⟨.char, 20, 4, 0x00, 0x40, 0x14, 0x54⟩, by decide, rfl, rfl, rfl, rfl, rfl, rfl⟩
  fresh    := fun h => by cases h
  graphic  := fun h => by cases h
  released := by decide

theorem ready40_inv : BlockInv ready40 where
  params   := by decide
  store    := glyphs_wf
  handle   := by decide
  status   := by decide
  geometry := .inr ⟨⟨.char, 40, 2, 0x00, 0x40, 0x00, 0x00⟩, by decide, rfl, rfl, rfl, rfl, rfl, rfl⟩
  accepted := fun _ => ⟨⟨.char, 40, 2, 0x00, 0x40, 0x00, 0x00⟩, by decide, rfl, rfl, rfl, rfl, rfl, rfl⟩
  fresh    := fun h => by cases h
  graphic  := fun h => by cases h
  released := by decide

theorem witness_DecodeOfEncode :
    (Instr.setDisplayOnGraphic true 0x7F 0xFF 0xFF []).decodesIn .graphic = true ∧
    (Instr.setDisplayOnChar true 0x7F 0xFF 0xFF []).decodesIn .char = true := by decide

theorem witness_EncodeOfDecode :
    decode .char (.req 0x0102FFFF []) = .ok (.init 0x02 true true 0x3F 0xFF []) ∧ decode .char (.hdCmd 0x80) = .ok (.hdSetDdramAddr 0) ∧
    decode .graphic (.oledCmd [0x81, 0x00]) = .ok (.oledSetContrast 0) ∧ decode .char (.hdNibble 0x2) = .ok .nibIface4bit := by decide

/-- Illegal OPs at the ends of each range of R103, and legal ones beside them. -/
theorem witness_IllegalOpcodeAnswers :
    [(0x00 : BitVec 32), 0x04, 0x0F, 0x1C, 0x1F, 0x23, 0x2F, 0x34, 0x3F, 0x43, 0xFF].all
      (fun op => report ready4 (.req (op <<< 24) []) == errs .illegalOp) = true ∧
    [(0x01 : BitVec 32), 0x03, 0x10, 0x1B, 0x20, 0x22, 0x30, 0x33, 0x40, 0x42].all
      (fun op => (decode .char (.req (op <<< 24) [])).isOk) = true := by decide

theorem witness_StepRunsDecodedInstruction :
    ({ ready4 with port := [.req 0x11000000 [], .hdCmd 0x01] } : State).port = .req 0x11000000 [] :: [.hdCmd 0x01] ∧
    decode ready4.family (.req 0x11000000 []) = .ok (.home 0 0 0 []) := by decide

theorem witness_StreamAdvancesByOne :
    (∃ t, step ready4 = .next t) ∧ ready4.port = [] ∧
    (∃ t, step { ready4 with port := [.req 0x11000000 [], .hdCmd 0x01] } = .next t ∧ t.port = [.hdCmd 0x01]) :=
  ⟨⟨_, rfl⟩, rfl, ⟨_, rfl, by decide⟩⟩

/-- Both sides of the equivalence, at the ends of the ranges. -/
theorem witness_OnlyUndecodableBytesAreRefused :
    [(0x00 : Byte), 0x10, 0x1F].all (fun v => (decode .char (.hdCmd v)).isOk == false) = true ∧
    [(0x01 : Byte), 0x0F, 0x20, 0xFF].all (fun v => (decode .char (.hdCmd v)).isOk) = true ∧
    [(0x1 : BitVec 4), 0x4].all (fun n => (decode .char (.hdNibble n)).isOk == false) = true ∧
    [[], [(0x81 : Byte)], [0xA3], [0xA8], [0xAD], [0xA4, 0x00], [0x80, 0x00]].all
      (fun bs => (decode .graphic (.oledCmd bs)).isOk == false) = true ∧
    (step { ready4 with port := [.hdCmd 0x10] } = .refused .notEncoderProduct) ∧
    (step { ready4 with port := [.hdNibble 0x4] } = .refused .notEncoderProduct) ∧
    (step { readyG with port := [.oledCmd []] } = .refused .notEncoderProduct) :=
  ⟨by decide, by decide, by decide, by decide, rfl, rfl, rfl⟩

theorem witness_ParametersAreFixed : ∃ t, step { ready4 with port := [.req 0x17000000 []] } = .next t := ⟨_, rfl⟩

theorem witness_ResetMeetsTheInvariants : (params .char).wf ∧ (params .graphic).wf := by decide

theorem witness_StepKeepsInv : BlockInv ready4 ∧ ∃ t, step ready4 = .next t := ⟨ready4_inv, _, rfl⟩

theorem witness_StepKeepsTraceOk :
    ready4.params.wf ∧ TraceOk ready4 ∧ ∃ t, step { ready4 with port := [.req 0x17000000 []] } = .next t :=
  ⟨by decide, fun e he => by simp [ready4, readyChar, fresh, State.resetWith] at he, _, rfl⟩

/-- The three changes of R316: to READY, to FAILED, to RELEASED. -/
theorem witness_LifecycleChangesOnlyAsStated :
    (left (.init 0x02 true true 0 0 []) (fresh .char)).lifecycle = .ready ∧
    (left (.init 0x02 true true 0 0 []) { fresh .char with env := answering 0 (.fail 7) }).lifecycle = .failed ∧
    (left (.teardown 0 0 0 []) failedChar).lifecycle = .released := by decide

theorem witness_DesyncIsSticky :
    runs (.setBacklight true 0 0 0 []) { ready4 with env := answering 0 (.fail 7) } = true ∧
    (left (.setBacklight true 0 0 0 []) { ready4 with env := answering 0 (.fail 7) }).busDesync = true ∧
    runs (.home 0 0 0 []) { ready4 with busDesync := true } = true := by decide

theorem witness_FlagsWrittenOnlyByTheirRequests :
    (left (.setDisplayOnChar false 0 0 0 []) ready4).displayOn ≠ ready4.displayOn ∧
    (left (.setCursorStyle true true 0 0 0 []) ready4).cursorOn ≠ ready4.cursorOn ∧
    (left (.setBacklight false 0 0 0 []) ready4).backlight ≠ ready4.backlight := by decide

theorem witness_GeometryAndStoreWriters :
    runs (.home 0 0 0 []) ready4 = true ∧ (left (.init 0x02 true true 0 0 []) (fresh .char)).width ≠ (fresh .char).width ∧
    (left (.setGlyph 7 0 0 (List.replicate 8 0xAA)) ready4).store ≠ ready4.store := by decide

theorem witness_PreconditionErrorsArePrecise :
    (∃ t, step { ready4 with port := [.req 0x18080000 []] } = .next t ∧
      t.response = some { status := .badIndex, cause := none, data := [] }) ∧
    (∃ t, step { ready4 with port := [.req 0x00000000 []] } = .next t ∧
      t.response = some { status := .illegalOp, cause := none, data := [] }) := ⟨⟨_, rfl, rfl⟩, ⟨_, rfl, rfl⟩⟩

theorem witness_LastStatusRecordsTheResponse :
    (∃ t, step { failedChar with port := [.req 0x030A0000 []] } = .next t ∧ t.lastStatus = 0x08) ∧
    (∃ t, step { failedChar with port := [.req 0x11000000 []] } = .next t ∧ t.lastStatus = 0x01) := ⟨⟨_, rfl, rfl⟩, ⟨_, rfl, rfl⟩⟩

theorem witness_ResponseShape :
    (∃ t, step { ready4 with port := [.req 0x1B000000 []] } = .next t ∧ t.response.map (fun r => r.data.length) = some 64) ∧
    (∃ t, step { ready4 with port := [.req 0x11000000 []], env := answering 0 (.fail 7) } = .next t ∧
      t.response = some { status := .transport, cause := some 7, data := [] }) := ⟨⟨_, rfl, rfl⟩, ⟨_, rfl, rfl⟩⟩

theorem witness_AfterTeardownOnlyErrReleased :
    releasedChar.lifecycle = .released ∧ (Instr.clear 0 0 0 []).isTeardown = false ∧ (Instr.clear 0 0 0 []).isReadReg = false ∧
    ∃ t, step { releasedChar with port := [.hdCmd 0x01] } = .next t := ⟨rfl, rfl, rfl, _, rfl⟩

theorem witness_OtherFamilyIsRefused :
    ready4.lifecycle ≠ .released ∧ ready4.family = .char ∧ readyG.lifecycle ≠ .released ∧ readyG.family = .graphic := by decide

theorem witness_NotInitializedIsAnswered :
    (Instr.home 0 0 0 []).isRequest = true ∧ (Instr.home 0 0 0 []).onlyFamily = some (fresh .char).family ∧
    (fresh .char).lifecycle = .uninitialized ∧ failedChar.lifecycle = .failed ∧ failedChar.family = .char := by decide

theorem witness_InitLifecycleErrors :
    ready4.lifecycle = .ready ∧ failedChar.lifecycle = .failed ∧ releasedChar.lifecycle = .released := by decide

/-- A request at each step of R302, and one that passes. -/
theorem witness_ChecksRunInOrder :
    decode .char (.req 0x43000000 []) = .error (.illegalOp 0x43) ∧
    firstFailure (.setContrast 1 0 0 []) releasedChar = some .released ∧
    firstFailure (.setContrast 1 1 0 [0]) (fresh .char) = some .unsupportedOp ∧
    firstFailure (.init 0x03 true true 1 0 [0]) ready4 = some .alreadyInitialized ∧
    firstFailure (.init 0x03 true true 1 0 [0]) failedChar = some .sessionFailed ∧
    firstFailure (.setGlyph 9 1 0 []) (fresh .char) = some .notInitialized ∧
    firstFailure (.setGlyph 9 1 0 []) ready4 = some .badOperand ∧
    firstFailure (.setGlyph 9 0 0 []) ready4 = some .badIndex ∧
    firstFailure (.setGlyph 7 0 0 []) ready4 = some .badLength ∧
    firstFailure (.setGlyph 7 0 0 (List.replicate 8 0)) ready4 = none ∧
    runs (.setGlyph 7 0 0 (List.replicate 8 0)) ready4 = true := by decide

/-- Each clause at the first value outside its range. -/
theorem witness_OperandValueErrors :
    (fresh .char).lifecycle = .uninitialized ∧ (fresh .char).family = .char ∧
    ((0x03 : Byte) ≠ 0x00 ∧ (0x03 : Byte) ≠ 0x01 ∧ (0x03 : Byte) ≠ 0x02) ∧
    ((0x80 : Byte) ≠ 0x00 ∧ (0x80 : Byte) ≠ 0x01 ∧ (0x80 : Byte) ≠ 0x02) ∧
    (fresh .graphic).lifecycle = .uninitialized ∧ (fresh .graphic).family = .graphic ∧ (0x81 : Byte) ≠ 0x80 ∧ (0x00 : Byte) ≠ 0x80 ∧
    ¬ ((0x0A : Byte).toNat ≤ 0x09 ∨ (0x40 ≤ (0x0A : Byte).toNat ∧ (0x0A : Byte).toNat ≤ 0x7F)) ∧
    ¬ ((0x80 : Byte).toNat ≤ 0x09 ∨ (0x40 ≤ (0x80 : Byte).toNat ∧ (0x80 : Byte).toNat ≤ 0x7F)) ∧
    ready4.family = .char ∧ ready4.lifecycle = .ready ∧
    ¬ ((20 : Byte).toNat < ready4.width.toNat ∧ (3 : Byte).toNat < ready4.height.toNat) ∧
    ¬ (0 < ready4.width.toNat ∧ (4 : Byte).toNat < ready4.height.toNat) ∧
    7 < (8 : Byte).toNat ∧ 0x3F < (0x40 : Byte).toNat ∧ 0x7F < (0x80 : Byte).toNat := by decide

theorem witness_NibbleTransfer :
    (params .char).masksWf ∧ ∀ k ∈ [0, 1, 2], (answering k (.fail 7)).acksBus k ∧ (answering k (.fail 7)).answer k = .fail 7 ∧
      (answering k (.fail 7)).servesWaits 1 :=
  ⟨by decide, fun k _ => ⟨(answering_at k _).1, (answering_at k _).2, Nat.le_refl 1⟩⟩

theorem witness_FramesReconstructTheByte : (params .char).masksWf := by decide

theorem witness_NoGlitchOnRsOrBacklight :
    (params .char).masksWf ∧ .bus 0x27 [0xF9] ∈ byteXfer (params .char) true 0xFF true ∧ ready4.family = .char ∧
    runs (.setBacklight false 0 0 0 []) ready4 = true := by decide

/-- The ends of the ranges of the encoder's operands. -/
theorem witness_EncoderFunctions :
    0x3F < (0x40 : Byte).toNat ∧ (0x3F : Byte).toNat ≤ 0x3F ∧ 0x7F < (0x80 : Byte).toNat ∧ (0x7F : Byte).toNat ≤ 0x7F := by decide

/-- The variants of the character family (10_state.md R40), as the statements about INIT list them. -/
def charVariants : List (Byte × Byte × Byte × BitVec 7 × BitVec 7 × BitVec 7 × BitVec 7) :=
  [(0x00, 16, 2, 0x00, 0x40, 0x00, 0x00), (0x01, 40, 2, 0x00, 0x40, 0x00, 0x00), (0x02, 20, 4, 0x00, 0x40, 0x14, 0x54)]

theorem witness_InitCharCompletes :
    (0x01, 40, 2, 0x00, 0x40, 0x00, 0x00) ∈ charVariants ∧
    (fresh .char).family = .char ∧ (fresh .char).lifecycle = .uninitialized ∧ (fresh .char).env.acksBus 42 ∧
    (fresh .char).env.servesWaits 35 := ⟨by decide, rfl, rfl, acking_acks 42 (by decide), acking_serves 35⟩

theorem witness_InitGraphicCompletes :
    (fresh .graphic).family = .graphic ∧ (fresh .graphic).lifecycle = .uninitialized ∧
    (fresh .graphic).env.acksBus ((fresh .graphic).params.gfxInitSeq.length + 1) := ⟨rfl, rfl, acking_acks 3 (by decide)⟩

/-- Before READY, first and last; in the clear sequence, first and last; the graphic family, first and last. -/
theorem witness_InitFailure :
    (0x02, 20, 4, 0x00, 0x40, 0x14, 0x54) ∈ charVariants ∧ (fresh .char).family = .char ∧ (fresh .char).lifecycle = .uninitialized ∧ (fresh .graphic).family = .graphic ∧
    (fresh .graphic).lifecycle = .uninitialized ∧
    (∀ k ∈ [0, 29, 30, 41], k < 42 ∧ (answering k (.fail 7)).acksBus k ∧ (answering k (.fail 7)).answer k = .fail 7 ∧
      (answering k (.fail 7)).servesWaits 35) ∧
    (∀ k ∈ [0, 2], k < (fresh .graphic).params.gfxInitSeq.length + 1 ∧ (answering k (.fail 7)).acksBus k ∧
      (answering k (.fail 7)).answer k = .fail 7) := by
  refine ⟨by decide, rfl, rfl, rfl, rfl, fun k hk => ⟨?_, (answering_at k _).1, (answering_at k _).2, Nat.le_refl 35⟩,
    fun k hk => ⟨?_, (answering_at k _).1, (answering_at k _).2⟩⟩
  · simp only [List.mem_cons, List.not_mem_nil, or_false] at hk
    omega
  · simp only [List.mem_cons, List.not_mem_nil, or_false] at hk
    have : (fresh .graphic).params.gfxInitSeq.length = 2 := rfl
    omega

theorem witness_TeardownReleasesOnce :
    ready4.lifecycle ≠ .released ∧ releasedChar.lifecycle = .released ∧ ¬ ((1 : Byte) = 0 ∧ (0 : Byte) = 0 ∧ (0 : Byte) = 0) ∧
    ([0] : List Byte) ≠ [] := by decide

/-- The first and the last store register. -/
theorem witness_ReadRegCompletes :
    ready4.store.wf ∧ 0x40 ≤ (0x40 : Byte).toNat ∧ (0x40 : Byte).toNat ≤ 0x7F ∧ 0x40 ≤ (0x7F : Byte).toNat ∧
    (0x7F : Byte).toNat ≤ 0x7F := by decide

theorem witness_ClearAndHomeComplete :
    ready4.family = .char ∧ ready4.lifecycle = .ready ∧ ready4.env.acksBus 12 ∧ ready4.env.servesWaits 10 ∧ ready4.env.acksBus 6 ∧
    ready4.env.servesWaits 5 :=
  ⟨rfl, rfl, acking_acks 12 (by decide), acking_serves 10, acking_acks 6 (by decide), acking_serves 5⟩

/-- The last position of the last row, and the first position past it on each side. -/
theorem witness_SetPosSendsTheDdramAddress :
    ready4.family = .char ∧ ready4.lifecycle = .ready ∧ ready4.env.acksBus 6 ∧ ready4.env.servesWaits 4 ∧
    (19 : Byte).toNat < ready4.width.toNat ∧ (3 : Byte).toNat < ready4.height.toNat ∧
    [ready4.lineOffset0, ready4.lineOffset1, ready4.lineOffset2, ready4.lineOffset3][(3 : Byte).toNat]? = some 0x54 ∧
    ¬ ((20 : Byte).toNat < ready4.width.toNat ∧ (3 : Byte).toNat < ready4.height.toNat) ∧
    ¬ ((19 : Byte).toNat < ready4.width.toNat ∧ (4 : Byte).toNat < ready4.height.toNat) :=
  ⟨rfl, rfl, acking_acks 6 (by decide), acking_serves 4, by decide, by decide, by decide, by decide, by decide⟩

/-- The last position of the widest and of the tallest variant. -/
theorem witness_DdramAddressStaysInItsRowSpan :
    (BlockInv ready40 ∧ ready40.family = .char ∧ ready40.lifecycle = .ready ∧ (39 : Byte).toNat < ready40.width.toNat ∧
      (1 : Byte).toNat < ready40.height.toNat) ∧
    (BlockInv ready4 ∧ ready4.family = .char ∧ ready4.lifecycle = .ready ∧ (19 : Byte).toNat < ready4.width.toNat ∧
      (3 : Byte).toNat < ready4.height.toNat) :=
  ⟨⟨ready40_inv, rfl, rfl, by decide, by decide⟩, ⟨ready4_inv, rfl, rfl, by decide, by decide⟩⟩

/-- The longest payload of the test build, and the last row. -/
theorem witness_TextCompletes :
    ready4.family = .char ∧ ready4.lifecycle = .ready ∧ (List.replicate 64 (0x41 : Byte)).length ≤ ready4.params.maxPayload ∧
    ready4.env.acksBus (6 * (List.replicate 64 (0x41 : Byte)).length) ∧
    ready4.env.servesWaits (4 * (List.replicate 64 (0x41 : Byte)).length) ∧
    0 < ready4.width.toNat ∧ (3 : Byte).toNat < ready4.height.toNat ∧
    [ready4.lineOffset0, ready4.lineOffset1, ready4.lineOffset2, ready4.lineOffset3][(3 : Byte).toNat]? = some 0x54 ∧
    ready4.env.acksBus (6 * ((List.replicate 64 (0x41 : Byte)).length + 1)) ∧
    ready4.env.servesWaits (4 * ((List.replicate 64 (0x41 : Byte)).length + 1)) :=
  ⟨rfl, rfl, by decide, acking_acks 384 (by decide), acking_serves _, by decide, by decide, by decide, acking_acks 390 (by decide),
    acking_serves _⟩

theorem witness_TextAtLineIsPositionThenText :
    exec (.setPos 0 2 0 []) ready4 = .next (left (.setPos 0 2 0 []) ready4) ∧
    (left (.setPos 0 2 0 []) ready4).lastStatus = 0x00 ∧
    exec (.writeText 0 0 0 [0x48]) (left (.setPos 0 2 0 []) ready4) =
      .next (left (.writeText 0 0 0 [0x48]) (left (.setPos 0 2 0 []) ready4)) ∧
    (left (.writeText 0 0 0 [0x48]) (left (.setPos 0 2 0 []) ready4)).lastStatus = 0x00 :=
  ⟨exec_left _ _ (by decide), by decide, exec_left _ _ (by decide), by decide⟩

/-- A READY character-family block whose next transactions are acknowledged. -/
theorem witness_DisplayFlagRequestsComplete :
    ready4.family = .char ∧ ready4.lifecycle = .ready ∧ ready4.env.acksBus 6 ∧ ready4.env.servesWaits 4 :=
  ⟨rfl, rfl, acking_acks 6 (by decide), acking_serves 4⟩

theorem witness_SetDisplayOnIsIdempotent :
    exec (.setDisplayOnChar false 0 0 0 []) ready4 = .next (left (.setDisplayOnChar false 0 0 0 []) ready4) ∧
    (left (.setDisplayOnChar false 0 0 0 []) ready4).lastStatus = 0x00 ∧
    exec (.setDisplayOnChar false 0 0 0 []) (left (.setDisplayOnChar false 0 0 0 []) ready4) =
      .next (left (.setDisplayOnChar false 0 0 0 []) (left (.setDisplayOnChar false 0 0 0 []) ready4)) ∧
    (left (.setDisplayOnChar false 0 0 0 []) (left (.setDisplayOnChar false 0 0 0 []) ready4)).lastStatus = 0x00 :=
  ⟨exec_left _ _ (by decide), by decide, exec_left _ _ (by decide), by decide⟩

theorem witness_SetBacklightCompletes : ready4.family = .char ∧ ready4.lifecycle = .ready ∧ ready4.env.acksBus 1 :=
  ⟨rfl, rfl, acking_acks 1 (by decide)⟩

/-- The first and the last slot. -/
theorem witness_SetGlyphCompletes :
    ready4.family = .char ∧ ready4.lifecycle = .ready ∧ (0 : Byte).toNat ≤ 7 ∧ (7 : Byte).toNat ≤ 7 ∧
    (List.replicate 8 (0x1F : Byte)).length = 8 ∧ ready4.env.acksBus 54 ∧ ready4.env.servesWaits 36 :=
  ⟨rfl, rfl, by decide, by decide, by decide, acking_acks 54 (by decide), acking_serves 36⟩

theorem witness_SetAllGlyphsCompletes :
    ready4.family = .char ∧ ready4.lifecycle = .ready ∧ (List.replicate 64 (0x1F : Byte)).length = 64 ∧ ready4.env.acksBus 390 ∧
    ready4.env.servesWaits 260 := ⟨rfl, rfl, by decide, acking_acks 390 (by decide), acking_serves 260⟩

theorem witness_GlyphReadersComplete :
    ready4.family = .char ∧ ready4.lifecycle = .ready ∧ ready4.store.wf ∧ (0 : Byte).toNat ≤ 7 ∧ (7 : Byte).toNat ≤ 7 := by decide

/-- The ends of the ranges of CMD_SET_CGRAM and CMD_SET_DDRAM. -/
theorem witness_EncoderRequestsComplete :
    ready4.family = .char ∧ ready4.lifecycle = .ready ∧ ready4.env.acksBus 6 ∧ ready4.env.servesWaits 4 ∧ (0x3F : Byte).toNat ≤ 0x3F ∧
    (0x7F : Byte).toNat ≤ 0x7F := ⟨rfl, rfl, acking_acks 6 (by decide), acking_serves 4, by decide, by decide⟩

theorem witness_RawBytesCharComplete :
    ready4.family = .char ∧ ready4.lifecycle = .ready ∧ ready4.env.acksBus 6 ∧ ready4.env.servesWaits 4 :=
  ⟨rfl, rfl, acking_acks 6 (by decide), acking_serves 4⟩

/-- The shortest and the longest stream of the test build, and one past it. -/
theorem witness_RawBytesGraphicComplete :
    readyG.family = .graphic ∧ readyG.lifecycle = .ready ∧ readyG.env.acksBus 1 ∧ readyG.env.acksBus 2 ∧
    1 ≤ ([0x55] : List Byte).length ∧ (List.replicate 64 (0x55 : Byte)).length ≤ readyG.params.maxPayload ∧
    readyG.params.maxPayload < (List.replicate 65 (0x55 : Byte)).length ∧ ([] : List Byte).length = 0 :=
  ⟨rfl, rfl, acking_acks 1 (by decide), acking_acks 2 (by decide), by decide, by decide, by decide, rfl⟩

theorem witness_GraphicSettingsComplete :
    readyG.family = .graphic ∧ readyG.lifecycle = .ready ∧ readyG.env.acksBus 2 ∧ readyG.env.acksBus 1 :=
  ⟨rfl, rfl, acking_acks 2 (by decide), acking_acks 1 (by decide)⟩

theorem witness_HdCommandsComplete :
    ready4.family = .char ∧ ready4.lifecycle ≠ .released ∧ ready4.env.acksBus 6 ∧ ready4.env.servesWaits 4 ∧ ready4.env.acksBus 3 ∧
    ready4.env.servesWaits 2 ∧ (Instr.oledDisplay true).isRequest = false ∧ (Instr.oledDisplay true).onlyFamily = some .graphic :=
  ⟨rfl, by decide, acking_acks 6 (by decide), acking_serves 4, acking_acks 3 (by decide), acking_serves 2, rfl, rfl⟩

theorem witness_OledCommandsComplete :
    readyG.family = .graphic ∧ readyG.lifecycle ≠ .released ∧ readyG.env.acksBus 2 ∧ readyG.env.acksBus 1 ∧
    Instr.hdClear.isRequest = false ∧ Instr.hdClear.onlyFamily = some .char :=
  ⟨rfl, by decide, acking_acks 2 (by decide), acking_acks 1 (by decide), rfl, rfl⟩

/-- HOME sends six transactions; the first or the last of them fails. -/
theorem witness_TransportFailureCutsTheTraceAndKeepsTheWrites :
    (Instr.home 0 0 0 []).isInit = false ∧
    exec (.home 0 0 0 []) { ready4 with env := acking } = .next (left (.home 0 0 0 []) ready4) ∧
    (left (.home 0 0 0 []) ready4).trace = ready4.trace ++ homeSeq ready4.params true ∧
    acking.acksBus (busCount (homeSeq ready4.params true)) ∧
    ∀ k ∈ [0, 5], k < busCount (homeSeq ready4.params true) ∧
      (answering k (.fail 7)).acksBus k ∧ (answering k (.fail 7)).answer k = .fail 7 ∧
      (answering k (.fail 7)).servesWaits (waitCount (homeSeq ready4.params true)) := by
  have h6 : busCount (homeSeq ready4.params true) = 6 := by decide
  refine ⟨rfl, exec_left _ _ (by decide), by decide, acking_acks _ (by rw [h6]; decide),
    fun k hk => ⟨?_, (answering_at k _).1, (answering_at k _).2, Nat.le_refl _⟩⟩
  rw [h6]
  simp only [List.mem_cons, List.not_mem_nil, or_false] at hk
  omega

/-- HOME holds six transactions and five waits: a silent transport at the last transaction, and a host that serves only four waits. -/
theorem witness_UnansweredTransactionIsStuck :
    exec (.home 0 0 0 []) { ready4 with env := acking } = .next (left (.home 0 0 0 []) ready4) ∧
    (left (.home 0 0 0 []) ready4).trace = ready4.trace ++ homeSeq ready4.params true ∧
    busCount (homeSeq ready4.params true) = 6 ∧ waitCount (homeSeq ready4.params true) = 5 ∧ acking.acksBus 6 ∧
    (answering 5 .never).acksBus 5 ∧ (answering 5 .never).answer 5 = .never ∧ (answering 5 .never).servesWaits 5 ∧
    ({ acking with waits := some 4 } : Env).waits = some 4 ∧ ({ acking with waits := some 4 } : Env).acksBus 6 :=
  ⟨exec_left _ _ (by decide), by decide, by decide, by decide, acking_acks 6 (by decide), (answering_at 5 _).1, (answering_at 5 _).2,
    Nat.le_refl 5, rfl, acking_acks 6 (by decide)⟩

theorem witness_TraceSizes :
    (Instr.clear 0 0 0 []).isRequest = true ∧ runs (.clear 0 0 0 []) ready4 = true ∧
    (left (.clear 0 0 0 []) ready4).response = some { status := .ok, cause := none, data := [] } := by decide

theorem witness_FrameOfInstructionsThatWriteNoState :
    runs (.getGlyph 7 0 0 []) ready4 = true ∧ runs (.writeDataStream 0 0 0 [0x55]) readyG = true ∧
    runs (.clear 0 0 0 []) { ready4 with env := answering 5 (.fail 7) } = true ∧ Instr.hdClear.isRequest = false ∧
    runs .hdClear ready4 = true := by decide

theorem witness_FrameOfFlagRequests :
    runs (.setCursorStyle true true 0 0 0 []) ready4 = true ∧ runs (.setDisplayOnChar false 0 0 0 []) ready4 = true ∧
    runs (.setDisplayOnGraphic false 0 0 0 []) readyG = true ∧ runs (.setBacklight false 0 0 0 []) ready4 = true := by decide

theorem witness_FrameOfGlyphWriters :
    runs (.setGlyph 7 0 0 (List.replicate 8 0x1F)) ready4 = true ∧
    (left (.setGlyph 7 0 0 (List.replicate 8 0x1F)) ready4).store.read 63 = some 0x1F ∧
    runs (.setAllGlyphs 0 0 0 (List.replicate 64 0x1F)) { ready4 with env := answering 0 (.fail 7) } = true := by decide

theorem witness_FrameOfLifecycleRequests :
    runs (.init 0x01 true true 0 0 []) (fresh .char) = true ∧ runs (.teardown 0 0 0 []) failedChar = true ∧
    runs (.readReg 0x7F 0 0 []) releasedChar = true := by decide

end Sys2Proof.Tests
end

/-! The state family (10_state.md): the DisplayFlags byte, the DDRAM address of a valid position, and LAST_STATUS. -/

namespace Sys2Proof.Machine

-- the DisplayFlags byte (10_state.md R37)

/-- The three flag bits do not overlap, so the byte is their weighted sum. -/
theorem displayFlags_toNat (d c b : Bool) :
    ((bit3 d <<< 2) ||| (bit3 c <<< 1) ||| bit3 b).toNat = 4 * d.toNat + 2 * c.toNat + b.toNat := by
  revert d c b; decide

/-- Settles O31: the byte is made of the three flags, each at its own bit. -/
theorem flagsByteOfTheFlags : Obligations.FlagsByteOfTheFlags :=
  fun s => displayFlags_toNat s.displayOn s.cursorOn s.blinkOn

-- the DDRAM address of a valid position (10_state.md R40, R41)

/-- `LINE_OFFSET` of a geometry, row by row. -/
def lineOffsetsOf (g : Geometry) : List (BitVec 7) := [g.row0, g.row1, g.row2, g.row3]

/-- The rows of the variant table that belong to the character family (R40). -/
def charGeometries : List Geometry :=
  [⟨.char, 16, 2, 0x00, 0x40, 0x00, 0x00⟩, ⟨.char, 40, 2, 0x00, 0x40, 0x00, 0x00⟩, ⟨.char, 20, 4, 0x00, 0x40, 0x14, 0x54⟩]

/-- `width` cells from `base` on lie in one row span of the controller. -/
abbrev InRowSpan (base width : Nat) : Prop := base + width ≤ 0x28 ∨ (0x40 ≤ base ∧ base + width ≤ 0x68)

/-- A supported variant is a row of the variant table that belongs to the block's family (44_lifecycle.md R220). -/
theorem variantTable_of_supportedVariant {q : Params} {code : Byte} {g : Geometry} (h : supportedVariant q code = some g) :
    variantTable q code = some g ∧ g.family = q.family := by
  unfold supportedVariant at h
  split at h
  · rename_i hrow
    split_ifs at h with hfam
    cases h
    exact ⟨hrow, hfam⟩
  · cases h

/-- A character-family block takes its geometry from a character row of the table; the graphic row is of the other family. -/
theorem mem_charGeometries_of_supportedVariant {q : Params} {code : Byte} {g : Geometry} (hq : q.family = .char)
    (h : supportedVariant q code = some g) : g ∈ charGeometries := by
  obtain ⟨hrow, hfam⟩ := variantTable_of_supportedVariant h
  rw [hq] at hfam
  unfold variantTable at hrow
  split_ifs at hrow <;> cases hrow
  · exact .head _
  · exact .tail _ (.head _)
  · exact .tail _ (.tail _ (.head _))
  · cases hfam

/-- Every row on the display has an offset, and all its cells lie in one row span. -/
theorem charGeometries_inRowSpan :
    ∀ g ∈ charGeometries, ∀ y < g.height.toNat, ∃ base ∈ (lineOffsetsOf g)[y]?, InRowSpan base.toNat g.width.toNat := by
  decide

/-- The line offsets of a state with a geometry are the geometry's. -/
theorem GeometryIs.lineOffsets {s : State} {g : Geometry} (h : GeometryIs s g) :
    [s.lineOffset0, s.lineOffset1, s.lineOffset2, s.lineOffset3] = lineOffsetsOf g := by
  rw [h.row0, h.row1, h.row2, h.row3, lineOffsetsOf]

/-- A 7-bit sum whose exact value is a 7-bit value does not wrap. -/
theorem toNat_add_setWidth_of_lt {base : BitVec 7} {x : Byte} (h : base.toNat + x.toNat < 2 ^ 7) :
    (base + x.setWidth 7).toNat = base.toNat + x.toNat := by
  rw [BitVec.toNat_add, BitVec.toNat_setWidth, Nat.add_mod_mod, Nat.mod_eq_of_lt h]

/-- Settles O39: a READY block has a geometry of the variant table, and every row of a character geometry stays in its span. -/
theorem ddramAddressStaysInItsRowSpan : Obligations.DdramAddressStaysInItsRowSpan := by
  intro s x y hinv hfam hready hx hy
  obtain ⟨g, hg⟩ := hinv.accepted (.inl hready)
  rw [hg.width] at hx
  rw [hg.height] at hy
  obtain ⟨base, hbase, hspan⟩ :=
    charGeometries_inRowSpan g (mem_charGeometries_of_supportedVariant hfam hg.listed) y.toNat hy
  refine ⟨base, hg.lineOffsets ▸ hbase, toNat_add_setWidth_of_lt ?_, ?_⟩ <;> omega

-- LAST_STATUS (10_state.md R35)

/-- A request that only sends is not READ_REG. -/
theorem isReadReg_of_sends {i : Instr} (h : sends i = true) : i.isReadReg = false := by
  cases i with
  | readReg => cases h
  | _ => rfl

/-- A next state of any request but READ_REG: LAST_STATUS is the code of the response's status, which every form writes with it. -/
theorem Next.lastStatus_eq_code {i : Instr} {s t : State} (h : Next i s t) (hi : i.isRequest = true) (hr : i.isReadReg = false) :
    ∃ r, t.response = some r ∧ t.lastStatus = r.status.code := by
  cases h with
  | readRegRejected _ h | readReg _ h => rw [hr] at h; cases h
  | commandSent h => rw [hi] at h; cases h
  | _ => exact ⟨_, rfl, rfl⟩

/-- Every next state of READ_REG is the state before with a response (44_lifecycle.md R229). -/
theorem exec_readReg_next {reg b c : Byte} {p : List Byte} {s t : State} (h : exec (.readReg reg b c p) s = .next t) :
    ∃ st data, t = respondReadReg st data s := by
  rw [exec_readReg] at h
  rcases requestReadReg_next _ _ _ _ h with ⟨e, _, rfl⟩ | ⟨_, hb⟩
  · exact ⟨e, [], rfl⟩
  · simp only [bodyOf] at hb
    split at hb
    · cases hb; exact ⟨.ok, _, rfl⟩
    · cases hb

/-- Every request that answers a next state gives a response, and all but READ_REG record its status. -/
theorem exec_request_lastStatus {i : Instr} {s t : State} (hi : i.isRequest = true) (h : exec i s = .next t) :
    ∃ r, t.response = some r ∧ t.lastStatus = if i.isReadReg then s.lastStatus else r.status.code := by
  cases hr : i.isReadReg with
  | false => simpa using (exec_next i s t h).lastStatus_eq_code hi hr
  | true =>
    cases i with
    | readReg reg b c p =>
      obtain ⟨st, data, rfl⟩ := exec_readReg_next h
      exact ⟨_, rfl, rfl⟩
    | _ => cases hr

/-- Settles O18: an illegal OP is not READ_REG's and records ERR_ILLEGAL_OP; a decoded request is READ_REG exactly when its OP is 0x03. -/
theorem lastStatusRecordsTheResponse : Obligations.LastStatusRecordsTheResponse := by
  refine ⟨fun s t w p rest hport hstep => ?_, fun q => rfl, rfl⟩
  rcases step_request hport hstep with ⟨rfl, hillegal⟩ | ⟨i, hdec, hexec⟩
  · exact ⟨_, rfl, (if_neg (undecoded_request_op hillegal).1).symm⟩
  · obtain ⟨hreq, hop, _⟩ := decode_request_op hdec
    obtain ⟨r, hresp, hlast⟩ := exec_request_lastStatus hreq hexec
    exact ⟨r, hresp, by simpa only [hop] using hlast⟩

end Sys2Proof.Machine

/-! The encoding family (30_encoding.md): the illegal OPs of R103 and the operand values of R104. -/

namespace Sys2Proof.Machine

-- the illegal OPs (30_encoding.md R103)

/-- The OP values of R103 that name no request. -/
abbrev IllegalOp (op : Nat) : Prop :=
  op = 0x00 ∨ (0x04 ≤ op ∧ op ≤ 0x0F) ∨ (0x1C ≤ op ∧ op ≤ 0x1F) ∨ (0x23 ≤ op ∧ op ≤ 0x2F) ∨ (0x34 ≤ op ∧ op ≤ 0x3F) ∨ 0x43 ≤ op

/-- The rows of the opcode map and the ranges of R103 share out the OP values: a request decodes exactly when its OP is in no range. -/
theorem decodeRequest_cases (fam : Family) (op a b c : Byte) (p : List Byte) :
    (IllegalOp op.toNat ∧ decodeRequest fam op a b c p = .error (.illegalOp op)) ∨
    (¬ IllegalOp op.toNat ∧ ∃ i, decodeRequest fam op a b c p = .ok i) := by
  unfold decodeRequest
  split
  -- the row that answers every other OP; then the three OPs whose row is the family's
  case h_26 =>
    refine .inl ⟨?_, rfl⟩
    simp only [imp_false] at *
    omega
  case h_10 | h_16 | h_17 => cases fam <;> exact .inr ⟨by omega, _, rfl⟩
  all_goals exact .inr ⟨by omega, _, rfl⟩

/-- A step on a word that does not decode. -/
theorem step_undecoded {s : State} {w : PortWord} {rest : List PortWord} {e : DecodeError} (hp : s.port = w :: rest)
    (hd : decode s.family w = .error e) : step s = undecoded e { s with port := rest } := by
  simp only [step, fetch, hp, hd]

/-- Settles O4: an illegal OP is answered before any check, and an OP in no range of R103 is in the opcode map. -/
theorem illegalOpcodeAnswers : Obligations.IllegalOpcodeAnswers := by
  intro s w p rest hport
  rw [fieldOp_toNat]
  rcases decodeRequest_cases s.family (fieldOp w) (fieldA w) (fieldB w) (fieldC w) p with ⟨hill, hdec⟩ | ⟨hleg, hdec⟩
  · exact ⟨fun _ => step_undecoded hport hdec, fun h => absurd hill h⟩
  · exact ⟨fun h => absurd h hleg, fun _ => hdec⟩

-- the checks of the model are those of 60_exceptions.md R302

theorem checksOf_reservedZero (i : Instr) (s : State) : (checksOf i s).reservedZero = i.reservedZero := rfl
theorem checksOf_lengthOk (i : Instr) (s : State) : (checksOf i s).lengthOk = i.lengthLegal s.params := rfl

/-- The operand check of an instruction, in the terms of R104: legal values on a legal position, else the one error of its request. -/
theorem checksOf_operand {i : Instr} (s : State) (hi : i.isRequest = true) :
    (checksOf i s).operand = if i.operandsLegal s.params && positionLegal s i then none else some (operandStatus i) := by
  cases i with
  | init v => cases h : supportedVariant s.params v <;> simp [checksOf, variantError, Instr.operandsLegal, positionLegal, operandStatus, h]
  | readReg reg => simp [checksOf, registerError, Instr.operandsLegal, positionLegal, operandStatus]
  | setPos x y => simp [checksOf, positionError, validPos, Instr.operandsLegal, positionLegal, operandStatus, BitVec.lt_def]
  | writeTextAtLine row => simp [checksOf, positionError, validPos, Instr.operandsLegal, positionLegal, operandStatus, BitVec.lt_def]
  | setGlyph k | getGlyph k =>
    simp only [checksOf, indexError, Instr.operandsLegal, positionLegal, operandStatus, BitVec.lt_def, BitVec.le_def]
    grind
  | cmdFunctionSet dl => cases dl <;> rfl
  | hdFunctionSet => cases hi
  | cmdSetCgram o => simp [checksOf, encSetCgram_error, Instr.operandsLegal, positionLegal, operandStatus]
  | cmdSetDdram o => simp [checksOf, encSetDdram_error, Instr.operandsLegal, positionLegal, operandStatus]
  | _ => rfl

/-- INIT is neither TEARDOWN nor READ_REG. -/
theorem not_any_of_isInit {i : Instr} (h : i.isInit = true) : i.isTeardown = false ∧ i.isReadReg = false := by
  cases i with
  | init => exact ⟨rfl, rfl⟩
  | _ => cases h

/-- Step 2 of R302. -/
theorem releasedError_checksOf (i : Instr) (s : State) :
    releasedError (checksOf i s).life s.lifecycle =
      if s.lifecycle != .released || i.isTeardown || i.isReadReg then none else some .released := by
  cases hinit : i.isInit with
  | true =>
    obtain ⟨ht, hr⟩ := not_any_of_isInit hinit
    cases hl : s.lifecycle <;> simp [checksOf, releasedError, hinit, ht, hr]
  | false =>
    cases h : i.isTeardown || i.isReadReg <;> cases hl : s.lifecycle <;> simp_all [checksOf, releasedError]

/-- Step 3 of R302. -/
theorem familyError_checksOf (i : Instr) (s : State) :
    familyError (checksOf i s).fam s.family = if familyAdmits i s.family then none else some .unsupportedOp := by
  cases h : i.onlyFamily <;> simp [checksOf, familyError, familyAdmits, h]

/-- Step 4 of R302, in a session that is not released. -/
theorem lifecycleError_checksOf (i : Instr) (s : State) (hs : (s.lifecycle != .released || i.isTeardown || i.isReadReg) = true) :
    lifecycleError (checksOf i s).life s.lifecycle =
      if i.isInit && s.lifecycle == .ready then some .alreadyInitialized
      else if i.isInit && s.lifecycle == .failed then some .sessionFailed
      else if i.isInit || i.isTeardown || i.isReadReg || s.lifecycle == .ready then none
      else some .notInitialized := by
  cases hinit : i.isInit with
  | true =>
    obtain ⟨ht, hr⟩ := not_any_of_isInit hinit
    cases hl : s.lifecycle <;> simp_all [checksOf, lifecycleError]
  | false =>
    cases h : i.isTeardown || i.isReadReg <;> cases hl : s.lifecycle <;> simp_all [checksOf, lifecycleError]

/-- The first failing check of a list: its head if that fails, else that of the rest. -/
theorem firstFailing_cons (pass : Bool) (e : Status) (cs : List (Bool × Status)) :
    (((pass, e) :: cs).find? fun c => !c.1).map Prod.snd = if pass then (cs.find? fun c => !c.1).map Prod.snd else some e := by
  cases pass <;> rfl

/-- The checks a request runs are those of R302, and the first that fails is the same. -/
theorem firstError_checksOf {i : Instr} (s : State) (hi : i.isRequest = true) : firstError (checksOf i s) s = firstFailure i s := by
  rw [firstError, releasedError_checksOf, familyError_checksOf, checksOf_operand s hi, checksOf_reservedZero, checksOf_lengthOk]
  simp only [firstFailure, orderedChecks, firstFailing_cons]
  cases hreleased : s.lifecycle != .released || i.isTeardown || i.isReadReg
  case false => rfl
  rw [lifecycleError_checksOf i s hreleased]
  cases familyAdmits i s.family
  case false => rfl
  cases i.isInit && s.lifecycle == .ready
  case true => rfl
  cases i.isInit && s.lifecycle == .failed
  case true => rfl
  cases i.isInit || i.isTeardown || i.isReadReg || s.lifecycle == .ready
  case false => rfl
  cases i.reservedZero
  case false => rfl
  cases Instr.operandsLegal s.params i && positionLegal s i
  case false => rfl
  cases Instr.lengthLegal s.params i <;> rfl

/-- A request whose first failing check answers `e` is rejected with `e`. -/
theorem exec_rejected {i : Instr} {s : State} {e : Status} (hi : i.isRequest = true) (h : firstFailure i s = some e) :
    exec i s = .next (rejected i e s) := by
  rw [← firstError_checksOf s hi] at h
  cases hr : i.isReadReg with
  | false =>
    rw [exec_checked i s hi hr, request_rejected _ _ _ _ h, rejected, hr]
    rfl
  | true =>
    cases i with
    | readReg => rw [exec_readReg, requestReadReg, h]; rfl
    | _ => cases hr

-- the operand values that are not legal (30_encoding.md R104)

/-- In a lifecycle state of its Life column a request passes steps 2 and 4 of R302. -/
theorem lifeAdmits_passes {i : Instr} {l : Lifecycle} (hi : i.isRequest = true) (h : lifeAdmits i l = true) :
    (l != .released || i.isTeardown || i.isReadReg) = true ∧ (i.isInit && l == .ready) = false ∧
    (i.isInit && l == .failed) = false ∧ (i.isInit || i.isTeardown || i.isReadReg || l == .ready) = true := by
  unfold lifeAdmits at h
  split_ifs at h with hinit hany
  · cases beq_iff_eq.mp h
    simp [hinit]
  · simp [hinit, hany, Bool.or_assoc]
  · cases beq_iff_eq.mp h
    simp [hinit]

/-- Steps 2 to 5 of R302 pass and the operand value is not legal: the request answers the error of its operand, whatever its length. -/
theorem exec_illegalOperand {i : Instr} {s : State} (hi : i.isRequest = true) (hl : lifeAdmits i s.lifecycle = true)
    (hf : familyAdmits i s.family = true) (hz : i.reservedZero = true)
    (ho : (i.operandsLegal s.params && positionLegal s i) = false) :
    exec i s = .next (rejected i (operandStatus i) s) := by
  obtain ⟨hreleased, hready, hfailed, huninit⟩ := lifeAdmits_passes hi hl
  apply exec_rejected hi
  simp only [firstFailure, orderedChecks, firstFailing_cons, hreleased, hf, hready, hfailed, huninit, hz, ho]
  rfl

/-- The codes of the variants a block supports: the rows of R40 of its family. -/
theorem supportedVariant_code {q : Params} {v : Byte} {g : Geometry} (h : supportedVariant q v = some g) :
    (q.family = .char → v = 0x00 ∨ v = 0x01 ∨ v = 0x02) ∧ (q.family = .graphic → v = 0x80) := by
  obtain ⟨hrow, hfam⟩ := variantTable_of_supportedVariant h
  rw [← hfam]
  clear hfam
  unfold variantTable at hrow
  split_ifs at hrow <;> cases hrow <;> simp [*]

/-- INIT with a variant code that is no row of R40 of the block's family. -/
theorem exec_init_unsupported {s : State} {v : Byte} (bl on : Bool) (p : List Byte) (hs : s.lifecycle = .uninitialized)
    (hv : ∀ g, supportedVariant s.params v ≠ some g) :
    exec (.init v bl on 0 0 p) s = .next (rejected (.init v bl on 0 0 p) .unsupportedConfig s) := by
  refine exec_illegalOperand rfl (by rw [hs]; rfl) rfl rfl ?_
  simp [Instr.operandsLegal, Option.eq_none_iff_forall_ne_some.mpr hv]

/-- A READY-only request of the character family with an operand value that is not legal. -/
theorem exec_illegalOperand_readyChar {i : Instr} {s : State} (hf : s.family = .char) (hl : s.lifecycle = .ready)
    (hi : i.isRequest = true) (hfam : familyAdmits i .char = true) (hlife : lifeAdmits i .ready = true)
    (hz : i.reservedZero = true) (ho : (i.operandsLegal s.params && positionLegal s i) = false) :
    exec i s = .next (rejected i (operandStatus i) s) :=
  exec_illegalOperand hi (hl ▸ hlife) (hf ▸ hfam) hz ho

/-- Settles O25: each value is illegal by its clause of R104, and its request then answers the error of its operand. -/
theorem operandValueErrors : Obligations.OperandValueErrors := by
  intro s a b x y p
  refine ⟨fun hu => ⟨fun hf h0 h1 h2 => ?_, fun hf h => ?_⟩, fun hreg => ?_, fun hf hr => ?_⟩
  · refine exec_init_unsupported x y p hu fun g hg => ?_
    rcases (supportedVariant_code hg).1 hf with h | h | h <;> contradiction
  · exact exec_init_unsupported x y p hu fun g hg => h ((supportedVariant_code hg).2 hf)
  · refine exec_illegalOperand (i := .readReg a 0 0 p) rfl rfl rfl rfl ?_
    simpa [Instr.operandsLegal, positionLegal, validReg, BitVec.le_def] using hreg
  · refine ⟨fun hpos => ?_, fun hrow => ?_, fun hk => ?_, fun hk => ?_, ?_, fun ho => ?_, fun ho => ?_⟩
    all_goals refine exec_illegalOperand_readyChar hf hr rfl rfl rfl rfl ?_
    · simpa [Instr.operandsLegal, positionLegal] using hpos
    · simpa [Instr.operandsLegal, positionLegal] using hrow
    · simpa [Instr.operandsLegal, positionLegal, BitVec.lt_def] using hk
    · simpa [Instr.operandsLegal, positionLegal, BitVec.lt_def] using hk
    · rfl
    · simpa [Instr.operandsLegal, positionLegal, BitVec.lt_def] using ho
    · simpa [Instr.operandsLegal, positionLegal, BitVec.lt_def] using ho

end Sys2Proof.Machine

/-! The command encoder (41_command_encoder.md): the byte of every encoder function, as the sum of its command code and its operand. -/

namespace Sys2Proof.Machine

/-- An operand below `2 ^ i`, put under a command code whose low `i` bits are clear, adds to it. -/
theorem code_or_operand {i : Nat} (c : Nat) {v : Byte} (h : v.toNat < 2 ^ i) :
    BitVec.ofNat 8 (2 ^ i * c) ||| v = BitVec.ofNat 8 (2 ^ i * c + v.toNat) := by
  rw [Nat.two_pow_add_eq_or_of_lt h, BitVec.ofNat_or, BitVec.ofNat_toNat, BitVec.setWidth_eq]

theorem encEntryMode_eq (inc shift : Bool) :
    encEntryMode inc shift = .ok (BitVec.ofNat 8 (0x04 + 2 * inc.toNat + shift.toNat)) := by
  cases inc <;> cases shift <;> rfl

theorem encDisplayControl_eq (flags : BitVec 3) : encDisplayControl flags = .ok (BitVec.ofNat 8 (0x08 + flags.toNat)) := by
  have hv : (flags.setWidth 8).toNat = flags.toNat := BitVec.toNat_setWidth_of_le (by decide)
  have h := code_or_operand (i := 3) 1 (hv.trans_lt flags.isLt)
  rw [hv] at h
  exact congrArg EncResult.ok h

theorem encFunctionSet_eightBit (n f : Bool) : encFunctionSet true n f = .err .unsupportedConfig := rfl

theorem encFunctionSet_fourBit (n f : Bool) :
    encFunctionSet false n f = .ok (BitVec.ofNat 8 (0x20 + 8 * n.toNat + 4 * f.toNat)) := by
  cases n <;> cases f <;> rfl

theorem encSetCgram_of_gt {off : Byte} (h : 0x3F < off.toNat) : encSetCgram off = .err .badOperand :=
  if_pos (BitVec.lt_def (x := 0x3F#8).mpr h)

theorem encSetCgram_of_le {off : Byte} (h : off.toNat ≤ 0x3F) : encSetCgram off = .ok (BitVec.ofNat 8 (0x40 + off.toNat)) :=
  (if_neg (BitVec.not_lt.mpr (BitVec.le_def.mpr h))).trans
    (congrArg EncResult.ok (code_or_operand (i := 6) 1 (Nat.lt_succ_of_le h)))

theorem encSetDdram_of_gt {off : Byte} (h : 0x7F < off.toNat) : encSetDdram off = .err .badOperand :=
  if_pos (BitVec.lt_def (x := 0x7F#8).mpr h)

theorem encSetDdram_of_le {off : Byte} (h : off.toNat ≤ 0x7F) : encSetDdram off = .ok (BitVec.ofNat 8 (0x80 + off.toNat)) :=
  (if_neg (BitVec.not_lt.mpr (BitVec.le_def.mpr h))).trans
    (congrArg EncResult.ok (code_or_operand (i := 7) 1 (Nat.lt_succ_of_le h)))

theorem encAllOn_eq (b : Bool) : encAllOn b = .ok (if b then 0xA5 else 0xA4) := by
  cases b <;> rfl

theorem encInverse_eq (b : Bool) : encInverse b = .ok (if b then 0xA7 else 0xA6) := by
  cases b <;> rfl

theorem encDisplay_eq (b : Bool) : encDisplay b = .ok (if b then 0xAF else 0xAE) := by
  cases b <;> rfl

/-- Settles O30: every operand lies under the clear low bits of its command code, so the code and the operand add up. -/
theorem encoderFunctions : Obligations.EncoderFunctions :=
  ⟨rfl, rfl, encEntryMode_eq, encDisplayControl_eq, fun n f => ⟨encFunctionSet_eightBit n f, encFunctionSet_fourBit n f⟩,
    fun _ => ⟨encSetCgram_of_gt, encSetCgram_of_le⟩, fun _ => ⟨encSetDdram_of_gt, encSetDdram_of_le⟩, fun _ => rfl,
    fun b => ⟨encAllOn_eq b, encInverse_eq b, encDisplay_eq b⟩⟩

end Sys2Proof.Machine

/-! The nibble-strobe protocol (42_nibble_strobe.md): the two latch-low frames of a controller byte, and the byte they carry. -/

namespace Sys2Proof.Machine

/-- The data bits of a latch-low frame: the nibble in bits [7:4] (30_encoding.md R110). -/
def dataBits (n : BitVec 4) : Byte := n.setWidth 8 <<< 4

/-- The bits of a latch-low frame below the data bits: RS, and BL when the backlight is on (R110). -/
def lowBits (q : Params) (bl rs : Bool) : Byte := (if rs then maskRs else 0) ||| (if bl then q.maskBl else 0)

theorem frame_eq_dataBits_or_lowBits (q : Params) (bl : Bool) (n : BitVec 4) (rs : Bool) :
    frame q bl n rs = dataBits n ||| lowBits q bl rs := BitVec.or_assoc ..

-- the frames of a byte (42_nibble_strobe.md R171)

theorem dataBits_highNibble (v : Byte) : dataBits (highNibble v) = v &&& 0xF0 := by revert v; decide

theorem dataBits_lowNibble (v : Byte) : dataBits (lowNibble v) = (v <<< 4) &&& 0xF0 := by revert v; decide

/-- Settles O27: the transfers of the two nibbles, one after the other, with the data bits of each read off the byte. -/
theorem byteTransferFrames : Obligations.ByteTransferFrames := by
  intro q bl rs v
  simp only [byteXfer, nibbleXfer, frame_eq_dataBits_or_lowBits, dataBits_highNibble, dataBits_lowNibble]
  rfl

-- what a frame carries: its data bits in [7:4], its low bits in [3:0] (R172)

theorem dataBits_and_high (n : BitVec 4) : dataBits n &&& 0xF0 = dataBits n := by revert n; decide

theorem dataBits_and_low (n : BitVec 4) : dataBits n &&& 0x0F = 0 := by revert n; decide

/-- A legal backlight mask lies in bits [3:1] and RS at bit 0 (00_scope.md R11): no low bit is among the data bits. -/
theorem lowBits_and_high {q : Params} (hm : q.masksWf) (bl rs : Bool) : lowBits q bl rs &&& 0xF0 = 0 := by
  obtain ⟨-, hbl, -, -⟩ := hm
  unfold lowBits
  rcases hbl with hbl | hbl | hbl <;> rw [hbl] <;> revert bl rs <;> decide

theorem frame_and_high {q : Params} (hm : q.masksWf) (bl : Bool) (n : BitVec 4) (rs : Bool) :
    frame q bl n rs &&& 0xF0 = dataBits n := by
  rw [frame_eq_dataBits_or_lowBits, BitVec.and_or_distrib_right, dataBits_and_high, lowBits_and_high hm]
  exact BitVec.or_zero

/-- The low bits of a frame do not depend on its nibble. -/
theorem frame_and_low (q : Params) (bl : Bool) (n : BitVec 4) (rs : Bool) :
    frame q bl n rs &&& 0x0F = lowBits q bl rs &&& 0x0F := by
  rw [frame_eq_dataBits_or_lowBits, BitVec.and_or_distrib_right, dataBits_and_low]
  exact BitVec.zero_or

/-- A byte is the data bits of its high nibble over those of its low nibble, shifted back down. -/
theorem dataBits_reconstruct (v : Byte) : dataBits (highNibble v) ||| (dataBits (lowNibble v) >>> 4) = v := by revert v; decide

/-- Settles O28: each frame keeps its nibble in the data bits, and the low bits are the same for both nibbles. -/
theorem framesReconstructTheByte : Obligations.FramesReconstructTheByte := by
  intro q bl rs v hm
  refine ⟨frame q bl (highNibble v) rs, frame q bl (lowNibble v) rs, rfl, rfl, ?_, ?_⟩
  · calc (frame q bl (highNibble v) rs &&& (0xF0 : Byte)) ||| ((frame q bl (lowNibble v) rs &&& (0xF0 : Byte)) >>> 4)
      _ = dataBits (highNibble v) ||| (dataBits (lowNibble v) >>> 4) := by rw [frame_and_high hm, frame_and_high hm]
      _ = v := dataBits_reconstruct v
  · rw [frame_and_low, frame_and_low]

end Sys2Proof.Machine

/-! The lifecycle family (44_lifecycle.md): INIT to its end and cut by a failing transaction, its lifecycle errors, and TEARDOWN. -/

namespace Sys2Proof.Machine

-- events the environment lets through, and traffic that a failing transaction ends

theorem State.letsThrough_append {s : State} {xs ys : List Event} (h : s.letsThrough (xs ++ ys)) :
    s.letsThrough xs ∧ (s.sent xs).letsThrough ys := by
  obtain ⟨hb, hw⟩ := h
  rw [busCount_append] at hb
  rw [waitCount_append] at hw
  exact ⟨⟨s.env.acksBus_mono hb (Nat.le_add_right ..), s.env.servesWaits_mono hw (Nat.le_add_right ..)⟩,
    s.env.acksBus_after _ _ _ hb, s.env.servesWaits_after _ _ _ hw⟩

/-- If transaction `k` is the first that fails and the host serves the waits, the trace is cut there. -/
theorem traffic_failed (onFail : Cause → State → State) {evs : List Event} {s : State} (next : State → Result) {k : Nat} {c : Cause}
    (hk : k < busCount evs) (hpre : s.env.acksBus k) (ha : s.env.answer k = .fail c) (hw : s.env.servesWaits (waitCount evs)) :
    traffic onFail evs s next = .next (onFail c (s.sent (cutAfterBus k evs))) := by
  simp only [traffic, (emit_notAcknowledged k evs s hk hpre hw).1 c ha]

/-- What follows traffic runs only in the state in which all of it was sent. -/
theorem traffic_congr (onFail : Cause → State → State) {evs : List Event} {s : State} {next next' : State → Result}
    (h : next (s.sent evs) = next' (s.sent evs)) : traffic onFail evs s next = traffic onFail evs s next' := by
  rcases emit_cases evs s with ⟨he, -⟩ | ⟨k, c, -, -, -, he⟩ | ⟨f, he⟩ <;> simp only [traffic, he]
  exact h

/-- A request that fails no check of R302 runs its body. -/
theorem exec_accepted {i : Instr} {s : State} (hi : i.isRequest = true) (hr : i.isReadReg = false) (h : firstFailure i s = none) :
    exec i s = bodyOf i s := by
  rw [exec_checked i s hi hr, request_accepted _ _ _ ((firstError_checksOf s hi).trans h)]

-- INIT as the traffic before and after READY, in both families (R221, R224)

/-- The body of INIT after its writes. The graphic family has nothing to send after READY. -/
def initTraffic (w : State) : Result :=
  traffic raiseTransportInit (initBefore w) w fun t =>
    traffic raiseTransportInit (initAfter w) (t.setLifecycle .ready) fun u => .next (respond .ok [] u)

theorem charInit_eq_initTraffic {w : State} (hf : w.family = .char) : charInit w = initTraffic w := by
  simp only [charInit, initTraffic, initBefore, initAfter, hf]
  exact traffic_congr _ (by rw [State.sent_params, State.sent_backlight])

theorem graphicInit_eq_initTraffic {w : State} (hf : w.family = .graphic) : graphicInit w = initTraffic w := by
  simp only [graphicInit, initTraffic, initBefore, initAfter, hf]
  rfl

/-- INIT of a supported variant in UNINITIALIZED passes its checks, writes geometry and flags, and sends. -/
theorem exec_init_supported {s : State} {v : Byte} {g : Geometry} (bl on : Bool) (hl : s.lifecycle = .uninitialized)
    (hg : supportedVariant s.params v = some g) : exec (.init v bl on 0 0 []) s = initTraffic (initWrites v g bl on s) := by
  have hnone : firstFailure (.init v bl on 0 0 []) s = none := by
    simp [firstFailure, orderedChecks, familyAdmits, positionLegal, Instr.isInit, Instr.onlyFamily, Instr.reservedZero,
      Instr.operandsLegal, Instr.lengthLegal, hl, hg]
  rw [exec_accepted rfl rfl hnone]
  simp only [bodyOf, hg]
  cases hf : s.family with
  | char => exact charInit_eq_initTraffic hf
  | graphic => exact graphicInit_eq_initTraffic hf

theorem State.sent_setLifecycle (s : State) (evs : List Event) (l : Lifecycle) :
    (s.sent evs).setLifecycle l = (s.setLifecycle l).sent evs := rfl

/-- INIT whose traffic is let through ends READY with OK. -/
theorem initTraffic_done {w : State} {evs : List Event} (hevs : initBefore w ++ initAfter w = evs) (h : w.letsThrough evs) :
    initTraffic w = .next (respond .ok [] ((w.setLifecycle .ready).sent evs)) := by
  subst hevs
  obtain ⟨hbefore, hafter⟩ := State.letsThrough_append h
  rw [initTraffic, traffic_done _ _ _ _ hbefore, State.sent_setLifecycle, ← State.sent_sent]
  exact traffic_done _ _ _ _ hafter

/-- INIT with a failing transaction ends with the transport error: FAILED if it is one of the `n` before READY, else READY
(R225). -/
theorem initTraffic_failed {w : State} {evs : List Event} {n k : Nat} {c : Cause} (hevs : initBefore w ++ initAfter w = evs)
    (hn : busCount (initBefore w) = n) (hl : w.lifecycle ≠ .ready) (hk : k < busCount evs) (hpre : w.env.acksBus k)
    (ha : w.env.answer k = .fail c) (hw : w.env.servesWaits (waitCount evs)) :
    initTraffic w = .next (raiseTransport c
      ((w.setLifecycle (if k < n then .failed else .ready)).sent (cutAfterBus k evs))) := by
  subst hevs hn
  rw [busCount_append] at hk
  rw [waitCount_append] at hw
  have hwBefore := w.env.servesWaits_mono hw (Nat.le_add_right ..)
  rw [cutAfterBus_append]
  by_cases hkb : k < busCount (initBefore w)
  · rw [if_pos hkb, if_pos hkb, initTraffic, traffic_failed _ _ hkb hpre ha hwBefore, ← State.sent_setLifecycle]
    exact congrArg _ (raiseTransportInit_notReady _ _ hl)
  · obtain ⟨j, rfl⟩ := Nat.exists_eq_add_of_le (Nat.le_of_not_lt hkb)
    have hbefore : w.letsThrough (initBefore w) := ⟨w.env.acksBus_mono hpre (Nat.le_add_right ..), hwBefore⟩
    rw [if_neg hkb, if_neg hkb, Nat.add_sub_cancel_left, initTraffic, traffic_done _ _ _ _ hbefore, State.sent_setLifecycle,
      ← State.sent_sent]
    exact traffic_failed _ _ (Nat.lt_of_add_lt_add_left hk) (w.env.acksBus_after _ _ _ hpre) ((w.env.answer_after ..).trans ha)
      (w.env.servesWaits_after _ _ _ hw)

-- the variants and the events of INIT, as the statements list them (R220 to R224, R201)

/-- The variants of the character family (10_state.md R40): code, width, height and line offsets. -/
def charVariantRows : List (Byte × Byte × Byte × BitVec 7 × BitVec 7 × BitVec 7 × BitVec 7) :=
  [(0x00, 16, 2, 0x00, 0x40, 0x00, 0x00), (0x01, 40, 2, 0x00, 0x40, 0x00, 0x00), (0x02, 20, 4, 0x00, 0x40, 0x14, 0x54)]

theorem supportedVariant_of_mem_charVariantRows {q : Params} (hq : q.family = .char) {v w h : Byte} {r0 r1 r2 r3 : BitVec 7}
    (hmem : (v, w, h, r0, r1, r2, r3) ∈ charVariantRows) : supportedVariant q v = some ⟨.char, w, h, r0, r1, r2, r3⟩ := by
  simp only [charVariantRows, List.mem_cons, List.not_mem_nil, or_false, Prod.mk.injEq] at hmem
  rcases hmem with h | h | h <;> obtain ⟨rfl, rfl, rfl, rfl, rfl, rfl, rfl⟩ := h <;> simp [supportedVariant, variantTable, hq]

theorem supportedVariant_graphic {q : Params} (hq : q.family = .graphic) :
    supportedVariant q 0x80 = some ⟨.graphic, q.gfxWidth, q.gfxHeight, 0, 0, 0, 0⟩ := by
  simp [supportedVariant, variantTable, hq]

theorem exec_init_char {s : State} (bl on : Bool) {v w h : Byte} {r0 r1 r2 r3 : BitVec 7} (hf : s.family = .char)
    (hl : s.lifecycle = .uninitialized) (hmem : (v, w, h, r0, r1, r2, r3) ∈ charVariantRows) :
    exec (.init v bl on 0 0 []) s = initTraffic (initialized s v w h r0 r1 r2 r3 bl on) :=
  exec_init_supported bl on hl (supportedVariant_of_mem_charVariantRows hf hmem)

/-- The state INIT leaves in a graphic block before its events (R220). -/
abbrev graphicInitialized (s : State) (bl on : Bool) : State :=
  initialized s 0x80 s.params.gfxWidth s.params.gfxHeight 0 0 0 0 bl on

theorem exec_init_graphic {s : State} (bl on : Bool) (hf : s.family = .graphic) (hl : s.lifecycle = .uninitialized) :
    exec (.init 0x80 bl on 0 0 []) s = initTraffic (graphicInitialized s bl on) :=
  exec_init_supported bl on hl (supportedVariant_graphic hf)

/-- The events of INIT in the character family, before and after READY (R221). -/
abbrev charInitEvents (q : Params) (bl on : Bool) : List Event := powerOnEvents q bl on ++ clearEvents q bl

/-- Cursor and blink are off, so the display-control byte of step 5 shows the display flag alone (R223). -/
theorem encDisplayControl_flagsByte {w : State} (hcursor : w.cursorOn = false) (hblink : w.blinkOn = false) :
    encDisplayControl (flagsByte w) = .ok (if w.displayOn then 0x0C else 0x08) := by
  rw [flagsByte, hcursor, hblink]
  cases w.displayOn <;> rfl

theorem charInitSeq_eq_powerOnEvents {w : State} (hcursor : w.cursorOn = false) (hblink : w.blinkOn = false) :
    charInitSeq w.params w.backlight (flagsByte w) = powerOnEvents w.params w.backlight w.displayOn := by
  have hfunction : encFunctionSet false true false = .ok 0x28 := rfl
  have hentry : encEntryMode true false = .ok 0x06 := rfl
  simp only [charInitSeq, powerOnEvents, ifaceReset, iface4bit, sendHd, hfunction, encDisplayControl_flagsByte hcursor hblink, hentry]

theorem graphicInitSeq_eq_graphicInitEvents (q : Params) (on : Bool) : graphicInitSeq q on = graphicInitEvents q on := by
  rw [graphicInitSeq, graphicInitEvents, encDisplay_eq, List.map_eq_flatMap]
  rfl

theorem clearSeq_eq_clearEvents (q : Params) (bl : Bool) : clearSeq q bl = clearEvents q bl := rfl

theorem initEvents_char {w : State} (hf : w.family = .char) (hcursor : w.cursorOn = false) (hblink : w.blinkOn = false) :
    initBefore w ++ initAfter w = charInitEvents w.params w.backlight w.displayOn := by
  simp only [initBefore, initAfter, hf, charInitSeq_eq_powerOnEvents hcursor hblink, clearSeq_eq_clearEvents]

theorem initEvents_graphic {w : State} (hf : w.family = .graphic) :
    initBefore w ++ initAfter w = graphicInitEvents w.params w.displayOn := by
  simp only [initBefore, initAfter, hf, graphicInitSeq_eq_graphicInitEvents, List.append_nil]

theorem busCount_charInitEvents (q : Params) (bl on : Bool) : busCount (charInitEvents q bl on) = 42 := by
  simp [charInitEvents, powerOnEvents, clearEvents]

theorem waitCount_charInitEvents (q : Params) (bl on : Bool) : waitCount (charInitEvents q bl on) = 35 := by
  simp [charInitEvents, powerOnEvents, clearEvents]

theorem busCount_initBefore_char {w : State} (hf : w.family = .char) : busCount (initBefore w) = 30 := by
  simp only [initBefore, hf, busCount_charInitSeq]

theorem busCount_initBefore_graphic {w : State} (hf : w.family = .graphic) :
    busCount (initBefore w) = w.params.gfxInitSeq.length + 1 := by
  simp only [initBefore, hf, busCount_graphicInitSeq]

theorem busCount_graphicInitEvents (q : Params) (on : Bool) : busCount (graphicInitEvents q on) = q.gfxInitSeq.length + 1 := by
  rw [← graphicInitSeq_eq_graphicInitEvents, busCount_graphicInitSeq]

theorem waitCount_graphicInitEvents (q : Params) (on : Bool) : waitCount (graphicInitEvents q on) = 0 := by
  rw [← graphicInitSeq_eq_graphicInitEvents, waitCount_graphicInitSeq]

/-- Settles O32: the 42 transactions and 35 waits of the two sequences are let through. -/
theorem initCharCompletes : Obligations.InitCharCompletes := by
  intro s bl on v w h r0 r1 r2 r3 hmem hf hl hacks hserves
  have hbus := busCount_charInitEvents s.params bl on
  have hwait := waitCount_charInitEvents s.params bl on
  have hdone := initTraffic_done (w := initialized s v w h r0 r1 r2 r3 bl on) (evs := charInitEvents s.params bl on)
    (initEvents_char hf rfl rfl) ⟨hbus.symm ▸ hacks, hwait.symm ▸ hserves⟩
  rw [respond, State.sent, hbus, hwait] at hdone
  exact (exec_init_char bl on hf hl hmem).trans hdone

/-- Settles O33: the framed commands are let through, and there is no wait to serve. -/
theorem initGraphicCompletes : Obligations.InitGraphicCompletes := by
  intro s bl on hf hl hacks
  have hbus := busCount_graphicInitEvents s.params on
  have hwait := waitCount_graphicInitEvents s.params on
  have hdone := initTraffic_done (w := graphicInitialized s bl on) (evs := graphicInitEvents s.params on) (initEvents_graphic hf)
    ⟨hbus ▸ hacks, hwait ▸ Nat.zero_le _⟩
  rw [respond, State.sent, hbus, hwait] at hdone
  exact (exec_init_graphic bl on hf hl).trans hdone

/-- Settles O34: the failing transaction cuts the events of INIT; the first 30 of the character family, and all of the graphic
family, come before READY. -/
theorem initFailure : Obligations.InitFailure := by
  refine ⟨fun s bl on k c v w h r0 r1 r2 r3 hmem hf hl hk hpre ha hserves => ?_, fun s bl on k c hf hl hk hpre ha => ?_⟩
  · exact ⟨_, (exec_init_char bl on hf hl hmem).trans (initTraffic_failed (evs := charInitEvents s.params bl on)
      (initEvents_char hf rfl rfl) (busCount_initBefore_char hf) (hl ▸ nofun)
      (hk.trans_eq (busCount_charInitEvents ..).symm) hpre ha ((waitCount_charInitEvents ..).symm ▸ hserves)), rfl⟩
  · have hcut := initTraffic_failed (w := graphicInitialized s bl on)
      (n := s.params.gfxInitSeq.length + 1) (initEvents_graphic hf) (busCount_initBefore_graphic hf) (hl ▸ nofun)
      (hk.trans_eq (busCount_graphicInitEvents ..).symm) hpre ha ((waitCount_graphicInitEvents ..).symm ▸ Nat.zero_le _)
    rw [if_pos hk] at hcut
    exact ⟨_, (exec_init_graphic bl on hf hl).trans hcut, rfl⟩

-- the lifecycle errors of INIT (R226)

/-- INIT outside UNINITIALIZED fails the check of its lifecycle state, before any check of its operands. -/
theorem firstFailure_init (v c : Byte) (bl on : Bool) (r : BitVec 6) (p : List Byte) (s : State) :
    (s.lifecycle = .ready → firstFailure (.init v bl on r c p) s = some .alreadyInitialized) ∧
    (s.lifecycle = .failed → firstFailure (.init v bl on r c p) s = some .sessionFailed) ∧
    (s.lifecycle = .released → firstFailure (.init v bl on r c p) s = some .released) := by
  refine ⟨fun hl => ?_, fun hl => ?_, fun hl => ?_⟩
  all_goals
    simp only [firstFailure, orderedChecks, firstFailing_cons, hl]
    rfl

/-- Settles O23: INIT is rejected with the error of its lifecycle state. -/
theorem initLifecycleErrors : Obligations.InitLifecycleErrors := by
  intro s v c bl on r p
  obtain ⟨hready, hfailed, hreleased⟩ := firstFailure_init v c bl on r p s
  exact ⟨fun hl => exec_rejected rfl (hready hl), fun hl => exec_rejected rfl (hfailed hl),
    fun hl => exec_rejected rfl (hreleased hl)⟩

-- TEARDOWN (R227)

/-- TEARDOWN passes the checks of family and lifecycle in every state; its reserved bytes and its length are checked. -/
theorem firstFailure_teardown (a b c : Byte) (p : List Byte) (s : State) :
    firstFailure (.teardown a b c p) s =
      if a == 0 && b == 0 && c == 0 then if p.length == 0 then none else some .badLength else some .badOperand := by
  simp only [firstFailure, orderedChecks, firstFailing_cons]
  simp [familyAdmits, positionLegal, Instr.isInit, Instr.isTeardown, Instr.onlyFamily, Instr.reservedZero,
    Instr.operandsLegal, Instr.lengthLegal]

theorem exec_teardown_accepted (s : State) : exec (.teardown 0 0 0 []) s = bodyOf (.teardown 0 0 0 []) s :=
  exec_accepted rfl rfl (firstFailure_teardown 0 0 0 [] s)

/-- Settles O35: a well-formed TEARDOWN runs in every state and releases if the session is not released; any other is rejected. -/
theorem teardownReleasesOnce : Obligations.TeardownReleasesOnce := by
  refine fun s => ⟨fun hl => ?_, fun hl => ?_, fun a b c p habc => ?_, fun p hp => ?_⟩
  · exact (exec_teardown_accepted s).trans (if_neg hl)
  · exact (exec_teardown_accepted s).trans (if_pos hl)
  · refine exec_rejected rfl ((firstFailure_teardown a b c p s).trans (if_neg ?_))
    simpa [and_assoc] using habc
  · refine exec_rejected rfl ((firstFailure_teardown 0 0 0 p s).trans ((if_pos rfl).trans (if_neg ?_)))
    simpa using hp

end Sys2Proof.Machine

/-! The high-level operations (45_high_level_ops.md): SET_DISPLAY_ON twice in a row, and SET_BACKLIGHT. -/

namespace Sys2Proof.Machine

-- a request that only sends and answers OK has sent all of its traffic

/-- Only OK has the code 0 (60_exceptions.md R300). -/
theorem Status.eq_ok_of_code_eq_zero {st : Status} (h : st.code = 0x00) : st = .ok := by
  revert h; cases st <;> decide

theorem isRequest_of_sends {i : Instr} (h : sends i = true) : i.isRequest = true := by
  unfold sends at h
  split at h
  case h_6 => exact h
  all_goals cases h

theorem isTeardown_of_sends {i : Instr} (h : sends i = true) : i.isTeardown = false := by
  cases i with
  | teardown => cases h
  | _ => rfl

/-- INIT is no request that only sends. -/
theorem InitBegun.not_sends {i : Instr} {s w : State} (h : InitBegun i s w) : sends i ≠ true := by
  obtain ⟨v, bl, on, r, c, p, g, rfl, -, -⟩ := h.isInit
  exact nofun

/-- The one form of next state in which a request that only sends leaves LAST_STATUS 0: nothing was rejected and nothing was cut. -/
theorem Next.eq_sent_of_ok {i : Instr} {s t : State} (h : Next i s t) (hs : sends i = true) (hok : t.lastStatus = 0x00) :
    t = respond .ok [] ((writesOf i s).sent (trafficOf i s)) := by
  cases h with
  | sent => rfl
  | rejected e _ he => exact absurd (Status.eq_ok_of_code_eq_zero (st := e) hok) he.1
  | cut => exact nomatch Status.eq_ok_of_code_eq_zero (st := .transport) hok
  | readRegRejected _ hr | readReg _ hr => exact absurd hr (by simp [isReadReg_of_sends hs])
  | teardown ht | teardownAgain ht => exact absurd ht (by simp [isTeardown_of_sends hs])
  | commandSent hi | commandCut hi => exact absurd hi (by simp [isRequest_of_sends hs])
  | glyph _ _ _ _ _ hi | allGlyphs _ _ _ _ _ hi => subst hi; cases hs
  | initDone _ hi | initCutBefore _ hi | initCutAfter _ hi => exact absurd hs hi.not_sends

-- SET_DISPLAY_ON (R257, R258)

/-- The state a successful SET_DISPLAY_ON leaves: the flag is written and the display-control byte of the flags was sent. -/
theorem exec_setDisplayOnChar_ok {s t : State} {on : Bool} (h : exec (.setDisplayOnChar on 0 0 0 []) s = .next t)
    (hok : t.lastStatus = 0x00) :
    t = respond .ok [] ((s.setDisplay on).sent
      (sendHd s.params s.backlight (encDisplayControl (flagsByte (s.setDisplay on))))) :=
  (exec_next _ s t h).eq_sent_of_ok rfl hok

/-- A display-control byte is never an encoder error, so its transfer is not empty. -/
theorem sendHd_encDisplayControl_ne_nil (q : Params) (bl : Bool) (flags : BitVec 3) :
    sendHd q bl (encDisplayControl flags) ≠ [] := by
  rw [encDisplayControl_eq]
  exact List.cons_ne_nil _ _

/-- Settles O43: the first request writes the flag, so the second finds the flags it writes and sends the same byte. -/
theorem setDisplayOnIsIdempotent : Obligations.SetDisplayOnIsIdempotent := by
  intro s u t on hu huok ht htok
  have hu := exec_setDisplayOnChar_ok hu huok
  have ht := exec_setDisplayOnChar_ok ht htok
  subst hu ht
  exact ⟨rfl, ⟨_, sendHd_encDisplayControl_ne_nil _ _ _, rfl, rfl⟩, rfl, rfl, rfl, rfl⟩

-- SET_BACKLIGHT (R259, R177)

/-- After a one-byte transaction the expander's port holds that byte (60_exceptions.md R318). -/
theorem expanderPort_append_bus (evs : List Event) (a : BitVec 7) (b : Byte) :
    expanderPort (evs ++ [.bus a [b]]) = some b :=
  List.foldl_append

/-- Settles O44: the checks pass, and the one transaction of BacklightXfer is acknowledged; there is no wait to serve. -/
theorem setBacklightCompletes : Obligations.SetBacklightCompletes := by
  intro s on hf hl hacks
  have hdone : exec (.setBacklight on 0 0 0 []) s =
      .next (respond .ok [] ((s.setBacklight on).sent (backlightXfer s.params on))) :=
    exec_sends_done _ s rfl rfl (firstError_ready_intro .char s hl hf) hacks (Nat.zero_le _)
  exact ⟨_, hdone, rfl, expanderPort_append_bus _ _ _⟩

end Sys2Proof.Machine

/-! The exceptions family (60_exceptions.md): the order of the checks, what an error leaves unchanged, and the errors of family and
lifecycle. -/

namespace Sys2Proof.Machine

-- a request that fails no check answers OK or ERR_TRANSPORT (R302, R308)

/-- The last response is one a request gives when all its checks pass. -/
def Completed (t : State) : Prop := ∃ r, t.response = some r ∧ (r.status = .ok ∨ r.status = .transport)

theorem completed_respond_ok (data : List Byte) (s : State) : Completed (respond .ok data s) := ⟨_, rfl, .inl rfl⟩

theorem completed_raiseTransport (c : Cause) (s : State) : Completed (raiseTransport c s) := ⟨_, rfl, .inr rfl⟩

theorem completed_raiseTransportInit (c : Cause) (s : State) : Completed (raiseTransportInit c s) := completed_raiseTransport c _

/-- A sending body answers OK, or ERR_TRANSPORT at the transaction that failed. -/
theorem completed_of_sendAndRespond {evs : List Event} {s t : State} (h : sendAndRespond evs s = .next t) : Completed t := by
  rcases sendAndRespond_next evs s t h with rfl | ⟨k, c, -, -, -, rfl⟩
  · exact completed_respond_ok _ _
  · exact completed_raiseTransport _ _

/-- INIT's traffic answers so too, whether a transaction before or after READY failed. -/
theorem completed_of_initTraffic {w t : State} (h : initTraffic w = .next t) : Completed t := by
  rcases traffic_next _ _ _ _ _ h with h | ⟨k, c, -, -, -, rfl⟩
  · rcases traffic_next _ _ _ _ _ h with h | ⟨k, c, -, -, -, rfl⟩
    · cases h
      exact completed_respond_ok _ _
    · exact completed_raiseTransportInit _ _
  · exact completed_raiseTransportInit _ _

/-- The body of INIT is its traffic, for a supported variant; any other fails the operand check. -/
theorem bodyOf_init {v c : Byte} {bl on : Bool} {r : BitVec 6} {p : List Byte} {s : State}
    (h : (Instr.init v bl on r c p).operandsLegal s.params = true) :
    ∃ w, bodyOf (.init v bl on r c p) s = initTraffic w := by
  obtain ⟨g, hg⟩ := Option.isSome_iff_exists.mp h
  refine ⟨initWrites v g bl on s, ?_⟩
  simp only [bodyOf, hg]
  cases hf : s.family with
  | char => exact charInit_eq_initTraffic hf
  | graphic => exact graphicInit_eq_initTraffic hf

/-- The body of a request with legal operands answers OK or ERR_TRANSPORT, if it answers. -/
theorem completed_of_bodyOf {i : Instr} {s t : State} (ho : i.operandsLegal s.params = true) (h : bodyOf i s = .next t) :
    Completed t := by
  cases i with
  | init =>
    obtain ⟨w, hw⟩ := bodyOf_init ho
    exact completed_of_initTraffic (hw.symm.trans h)
  | teardown =>
    simp only [bodyOf] at h
    split at h <;> cases h <;> exact completed_respond_ok _ _
  | readReg =>
    simp only [bodyOf] at h
    split at h <;> cases h
    exact ⟨_, rfl, .inl rfl⟩
  | getGlyph | getAllGlyphs =>
    obtain ⟨bytes, -, rfl⟩ := respondStore_next _ _ _ _ h
    exact completed_respond_ok _ _
  | _ =>
    simp only [bodyOf] at h
    split at h
    · exact completed_of_sendAndRespond h
    · cases h

-- a request is rejected by its first failing check, or runs its body (R302)

/-- A request that fails no check has legal operands. -/
theorem operandsLegal_of_firstFailure_none {i : Instr} {s : State} (h : firstFailure i s = none) :
    i.operandsLegal s.params = true := by
  have hpass : ∀ c ∈ orderedChecks i s, c.1 = true := by
    simpa only [firstFailure, Option.map_eq_none_iff, List.find?_eq_none, Bool.not_eq_true', Bool.not_eq_false] using h
  have hoperand := hpass (i.operandsLegal s.params && positionLegal s i, operandStatus i) (by simp [orderedChecks])
  exact (Bool.and_eq_true_iff.mp hoperand).1

/-- `exec_accepted` for every request, READ_REG included. -/
theorem exec_eq_bodyOf {i : Instr} {s : State} (hi : i.isRequest = true) (h : firstFailure i s = none) : exec i s = bodyOf i s := by
  cases hr : i.isReadReg with
  | false => exact exec_accepted hi hr h
  | true =>
    cases i with
    | readReg => rw [exec_readReg, requestReadReg, (firstError_checksOf s hi).trans h]
    | _ => cases hr

/-- A request that fails no check answers OK or ERR_TRANSPORT, if it answers. -/
theorem completed_of_exec {i : Instr} {s t : State} (hi : i.isRequest = true) (h : firstFailure i s = none)
    (ht : exec i s = .next t) : Completed t :=
  completed_of_bodyOf (operandsLegal_of_firstFailure_none h) ((exec_eq_bodyOf hi h).symm.trans ht)

/-- A request word that does not decode is answered before any check. -/
theorem step_illegalOp {s : State} {w : BitVec 32} {p : List Byte} {rest : List PortWord} (hport : s.port = .req w p :: rest)
    (h : ∀ i, decode s.family (.req w p) ≠ .ok i) : step s = .next (raise .illegalOp { s with port := rest }) := by
  rcases decodeRequest_cases s.family (fieldOp w) (fieldA w) (fieldB w) (fieldC w) p with ⟨-, hdec⟩ | ⟨-, i, hdec⟩
  · exact step_undecoded hport hdec
  · exact absurd hdec (h i)

/-- Settles O24: step 1 is decoding; then the first failing check of R302 rejects, and a request that fails none runs its body. -/
theorem checksRunInOrder : Obligations.ChecksRunInOrder :=
  ⟨fun _ _ _ _ hport hillegal => step_illegalOp hport hillegal,
    fun _ _ hi => ⟨fun _ hfail => exec_rejected hi hfail, fun hpass _ ht => completed_of_exec hi hpass ht⟩⟩

/-- Settles O17: such a status comes from step 1 or from a failing check, and both only write LAST_STATUS and the response (R301). -/
theorem preconditionErrorsArePrecise : Obligations.PreconditionErrorsArePrecise := by
  intro s t w p rest r hport hstep hresp hok htransport
  rcases step_request hport hstep with ⟨rfl, -⟩ | ⟨i, hdec, hexec⟩
  · rfl
  · obtain ⟨hi, -⟩ := decode_request_op hdec
    cases hfail : firstFailure i { s with port := rest } with
    | some e =>
      cases (exec_rejected hi hfail).symm.trans hexec
      rfl
    | none =>
      obtain ⟨r', hresp', hstatus⟩ := completed_of_exec hi hfail hexec
      cases hresp.symm.trans hresp'
      exact absurd hstatus (not_or.mpr ⟨hok, htransport⟩)

-- the errors of family and lifecycle (R305, R306)

/-- An instruction of one family is none of INIT, TEARDOWN and READ_REG, which both families have (30_encoding.md R102). -/
theorem not_lifecycleRequest_of_onlyFamily {i : Instr} {f : Family} (h : i.onlyFamily = some f) :
    i.isInit = false ∧ i.isTeardown = false ∧ i.isReadReg = false := by
  cases i with
  | init | teardown | readReg => cases h
  | _ => exact ⟨rfl, rfl, rfl⟩

/-- A request of one family that fails a check records the error in LAST_STATUS. -/
theorem exec_raises {i : Instr} {s : State} {f : Family} {e : Status} (hi : i.isRequest = true) (hf : i.onlyFamily = some f)
    (h : firstFailure i s = some e) : exec i s = .next (raise e s) := by
  obtain ⟨-, -, hr⟩ := not_lifecycleRequest_of_onlyFamily hf
  rw [exec_rejected hi h, rejected, hr]
  rfl

/-- Step 3 of R302 is the first that fails for a request of the other family, in a session that is not released. -/
theorem exec_otherFamily {i : Instr} {s : State} {f : Family} (hi : i.isRequest = true) (hf : i.onlyFamily = some f)
    (hne : f ≠ s.family) (hl : s.lifecycle ≠ .released) : exec i s = .next (raise .unsupportedOp s) := by
  refine exec_raises hi hf ?_
  have hreleased : (s.lifecycle != .released) = true := bne_iff_ne.mpr hl
  have hfam : familyAdmits i s.family = false := by simpa [familyAdmits, hf] using hne
  simp only [firstFailure, orderedChecks, firstFailing_cons, hreleased, hfam]
  rfl

/-- Step 4 of R302 is the first that fails for a READY-only request of the block's family in UNINITIALIZED and in FAILED. -/
theorem exec_notInitialized {i : Instr} {s : State} (hi : i.isRequest = true) (hf : i.onlyFamily = some s.family)
    (hl : s.lifecycle = .uninitialized ∨ s.lifecycle = .failed) : exec i s = .next (raise .notInitialized s) := by
  refine exec_raises hi hf ?_
  obtain ⟨hinit, hteardown, hreadReg⟩ := not_lifecycleRequest_of_onlyFamily hf
  have hfam : familyAdmits i s.family = true := by simp [familyAdmits, hf]
  rcases hl with hl | hl
  all_goals
    simp only [firstFailure, orderedChecks, firstFailing_cons, hinit, hteardown, hreadReg, hfam, hl]
    rfl

/-- Settles O21: each list holds requests of the other family. -/
theorem otherFamilyIsRefused : Obligations.OtherFamilyIsRefused := by
  intro s a b c p x y z r5 r6 r7 hl
  have hrefused (f : Family) (hne : f ≠ s.family) (is : List Instr) (his : ∀ i ∈ is, i.isRequest = true ∧ i.onlyFamily = some f) :
      ∀ i ∈ is, exec i s = .next (raise .unsupportedOp s) :=
    fun i hmem => exec_otherFamily (his i hmem).1 (his i hmem).2 hne hl
  refine ⟨fun hchar => hrefused .graphic (by simp [hchar]) _ ?_, fun hgraphic => hrefused .char (by simp [hgraphic]) _ ?_⟩
  all_goals simp [Instr.isRequest, Instr.onlyFamily]

/-- Settles O22: LAST_STATUS and the response of `raise .notInitialized` are those of R306. -/
theorem notInitializedIsAnswered : Obligations.NotInitializedIsAnswered :=
  fun _ _ hi hf hl => exec_notInitialized hi hf hl

end Sys2Proof.Machine

/-! Decoding and encoding (30_encoding.md): the two round trips, the words the spec writes out, and the port words that are refused. -/

namespace Sys2Proof.Machine

-- decoding what was encoded (R100 to R105, R111, R113, R222)

/-- A request word decodes by the fields it was put together from. -/
theorem decode_requestWord (fam : Family) (op a b c : Byte) (p : List Byte) :
    decode fam (.req (requestWord op a b c) p) = decodeRequest fam op a b c p := by
  obtain ⟨hop, ha, hb, hc⟩ := requestWord_fields op a b c
  rw [decode, hop, ha, hb, hc]

/-- The leading 1 of an HD44780 command byte selects its row, and the bits below it are the operands (R111). -/
theorem decodeHd44780_setDdramAddr (a : BitVec 7) : decodeHd44780 ((1 : BitVec 1) ++ a) = .ok (.hdSetDdramAddr a) := by
  revert a; decide

theorem decodeHd44780_setCgramAddr (a : BitVec 6) : decodeHd44780 ((1 : BitVec 2) ++ a) = .ok (.hdSetCgramAddr a) := by
  revert a; decide

theorem decodeHd44780_functionSet (dl n f : Bool) (x : BitVec 2) :
    decodeHd44780 ((1 : BitVec 3) ++ BitVec.ofBool dl ++ BitVec.ofBool n ++ BitVec.ofBool f ++ x) = .ok (.hdFunctionSet dl n f x) := by
  revert dl n f x; decide

theorem decodeHd44780_displayControl (d c b : Bool) :
    decodeHd44780 ((1 : BitVec 5) ++ BitVec.ofBool d ++ BitVec.ofBool c ++ BitVec.ofBool b) = .ok (.hdDisplayControl d c b) := by
  revert d c b; decide

theorem decodeHd44780_entryMode (inc shift : Bool) :
    decodeHd44780 ((1 : BitVec 6) ++ BitVec.ofBool inc ++ BitVec.ofBool shift) = .ok (.hdEntryMode inc shift) := by
  revert inc shift; decide

theorem decodeHd44780_home (x : Bool) : decodeHd44780 ((1 : BitVec 7) ++ BitVec.ofBool x) = .ok (.hdHome x) := by
  revert x; decide

/-- Settles O2: a request word gives its fields back and a packed operand byte its bits; a command byte is read by its leading 1. -/
theorem decodeOfEncode : Obligations.DecodeOfEncode := by
  intro fam i hfam
  cases i with
  | init v bl on r c p =>
    obtain ⟨hbl, hon, hr⟩ := packBits2_bits r on bl
    rw [encode, decode_requestWord]
    simp only [decodeRequest, BitVec.reduceToNat, hbl, hon, hr]
  | setCursorStyle vis blk r b c p =>
    obtain ⟨hvis, hblk, hr⟩ := packBits2_bits r blk vis
    rw [encode, decode_requestWord]
    simp only [decodeRequest, BitVec.reduceToNat, hvis, hblk, hr]
  | cmdEntryMode inc sh r b c p =>
    obtain ⟨hsh, hinc, hr⟩ := packBits2_bits r inc sh
    rw [encode, decode_requestWord]
    simp only [decodeRequest, BitVec.reduceToNat, hsh, hinc, hr]
  | cmdFunctionSet dl n f r b c p =>
    obtain ⟨hf, hn, hdl, hr⟩ := packBits3_bits r dl n f
    rw [encode, decode_requestWord]
    simp only [decodeRequest, BitVec.reduceToNat, hf, hn, hdl, hr]
  | setBacklight on r b c p | setAllPixelsOn on r b c p | setInverse on r b c p =>
    obtain ⟨hon, hr⟩ := packBit_bits r on
    rw [encode, decode_requestWord]
    simp only [decodeRequest, BitVec.reduceToNat, hon, hr]
  | setDisplayOnChar on r b c p | setDisplayOnGraphic on r b c p =>
    obtain ⟨hon, hr⟩ := packBit_bits r on
    cases eq_of_beq hfam
    rw [encode, decode_requestWord]
    simp only [decodeRequest, BitVec.reduceToNat, hon, hr]
  | writeCommandChar | writeCommandGraphic | writeDataChar | writeDataGraphic =>
    cases eq_of_beq hfam
    rw [encode, decode_requestWord]
    rfl
  | hdClear | nibIfaceReset | nibIface4bit | oledSetContrast => rfl
  | hdHome x => exact decodeHd44780_home x
  | hdEntryMode inc sh => exact decodeHd44780_entryMode inc sh
  | hdDisplayControl d c b => exact decodeHd44780_displayControl d c b
  | hdFunctionSet dl n f x => exact decodeHd44780_functionSet dl n f x
  | hdSetCgramAddr a => exact decodeHd44780_setCgramAddr a
  | hdSetDdramAddr a => exact decodeHd44780_setDdramAddr a
  | oledAllOn b | oledInverse b | oledDisplay b => cases b <;> rfl
  | _ =>
    rw [encode, decode_requestWord]
    rfl

-- encoding what was decoded

/-- An instruction is the meaning of a port word in a block of family `fam`: encoding it gives the word, and the family decodes it. -/
def Means (fam : Family) (w : PortWord) (i : Instr) : Prop := encode i = w ∧ i.decodesIn fam = true

theorem byte_eq_of_toNat_eq {op : Byte} {n : Nat} (h : op.toNat = n) : op = BitVec.ofNat 8 n := by
  rw [← h, BitVec.ofNat_toNat, BitVec.setWidth_eq]

/-- The port word of a decoded request is made of the fields it was decoded from. -/
theorem means_of_decodeRequest {fam : Family} {op a b c : Byte} {p : List Byte} {i : Instr}
    (h : decodeRequest fam op a b c p = .ok i) : Means fam (.req (requestWord op a b c) p) i := by
  unfold decodeRequest at h
  split at h
  -- an OP outside the map; then the three OPs whose row is the family's
  case h_26 => cases h
  case h_10 hop | h_16 hop | h_17 hop =>
    cases byte_eq_of_toNat_eq hop
    cases fam <;> cases h <;> exact ⟨by simp only [encode, packBit_of_bits, BitVec.ofNat_eq_ofNat], rfl⟩
  all_goals
    rename_i hop
    cases byte_eq_of_toNat_eq hop
    cases h
    exact ⟨by simp only [encode, packBit_of_bits, packBits2_of_bits, packBits3_of_bits, BitVec.ofNat_eq_ofNat], rfl⟩

/-- A bare controller command is decoded in both families. -/
theorem means_of_command {fam : Family} {w : PortWord} {i : Instr} (hw : encode i = w) (hi : i.isRequest = false) : Means fam w i := by
  refine ⟨hw, ?_⟩
  unfold Instr.decodesIn
  split
  case h_7 => rfl
  all_goals cases hi

theorem means_of_decodeHd44780 {fam : Family} {v : Byte} {i : Instr} (h : decodeHd44780 v = .ok i) : Means fam (.hdCmd v) i := by
  have hrow : ∀ u : Byte, ∀ j ∈ (decodeHd44780 u).toOption, encode j = .hdCmd u ∧ j.isRequest = false := by decide
  obtain ⟨hw, hi⟩ := hrow v i (by rw [h]; rfl)
  exact means_of_command hw hi

theorem means_of_decodeNibble {fam : Family} {n : BitVec 4} {i : Instr} (h : decodeNibble n = .ok i) : Means fam (.hdNibble n) i := by
  unfold decodeNibble at h
  split_ifs at h with h3 h2 <;> cases h <;> subst n <;> exact means_of_command rfl rfl

theorem means_of_decodeOled {fam : Family} {bs : List Byte} {i : Instr} (h : decodeOled bs = .ok i) : Means fam (.oledCmd bs) i := by
  unfold decodeOled at h
  split at h
  case h_1 c v =>
    split_ifs at h with hc
    cases h
    subst hc
    exact means_of_command rfl rfl
  case h_2 c =>
    have hrow : ∀ u : Byte, ∀ j ∈ (decodeOled [u]).toOption, encode j = .oledCmd [u] ∧ j.isRequest = false := by decide
    obtain ⟨hw, hi⟩ := hrow c i (by rw [decodeOled, h]; rfl)
    exact means_of_command hw hi
  case h_3 => cases h

/-- Settles O3: format by format, the decoded instruction is made of the word's own fields. -/
theorem encodeOfDecode : Obligations.EncodeOfDecode := by
  intro fam w i h
  cases w with
  | req word p => exact requestWord_of_fields word ▸ means_of_decodeRequest h
  | hdCmd v => exact means_of_decodeHd44780 h
  | hdNibble n => exact means_of_decodeNibble h
  | oledCmd bs => exact means_of_decodeOled h

/-- Settles O1: each word is read by its OP or by its leading 1. -/
theorem specWordsDecode : Obligations.SpecWordsDecode := by
  unfold Obligations.SpecWordsDecode
  decide

-- what is refused (41_command_encoder.md R153)

/-- A result is a next state or a fault. -/
def NotRefused (x : Result) : Prop := ∀ r, x ≠ .refused r

theorem notRefused_next (t : State) : NotRefused (.next t) := fun _ h => nomatch h

theorem notRefused_fault (f : Fault) : NotRefused (.fault f) := fun _ h => nomatch h

theorem notRefused_traffic {onFail : Cause → State → State} {evs : List Event} {s : State} {next : State → Result}
    (hnext : ∀ t, NotRefused (next t)) : NotRefused (traffic onFail evs s next) := by
  unfold traffic
  split
  · exact hnext _
  · exact notRefused_next _
  · exact notRefused_fault _

theorem notRefused_sendAndRespond (evs : List Event) (s : State) : NotRefused (sendAndRespond evs s) :=
  notRefused_traffic fun _ => notRefused_next _

theorem notRefused_initTraffic (w : State) : NotRefused (initTraffic w) :=
  notRefused_traffic fun _ => notRefused_traffic fun _ => notRefused_next _

theorem notRefused_bodyOf {i : Instr} {s : State} (ho : i.operandsLegal s.params = true) : NotRefused (bodyOf i s) := by
  cases i with
  | init =>
    obtain ⟨w, hw⟩ := bodyOf_init ho
    exact hw ▸ notRefused_initTraffic w
  | teardown => simp only [bodyOf]; split <;> exact notRefused_next _
  | readReg =>
    simp only [bodyOf]
    split
    · exact notRefused_next _
    · exact notRefused_fault _
  | getGlyph | getAllGlyphs =>
    simp only [bodyOf, respondStore]
    split
    · exact notRefused_next _
    · exact notRefused_fault _
  | _ =>
    simp only [bodyOf]
    split
    · exact notRefused_sendAndRespond _ _
    · exact notRefused_fault _

theorem notRefused_controllerCommand (fam : Family) (err : Option Status) (evs : List Event) (s : State) :
    NotRefused (controllerCommand fam err evs s) := by
  unfold controllerCommand
  split
  · exact notRefused_next _
  · split
    · exact notRefused_next _
    · cases err with
      | some e => exact notRefused_next _
      | none => exact notRefused_traffic notRefused_next

/-- No instruction is refused: a request is rejected or runs its body, and a bare command raises or sends. -/
theorem notRefused_exec (i : Instr) (s : State) : NotRefused (exec i s) := by
  cases hi : i.isRequest with
  | false =>
    obtain ⟨fam, -, h⟩ := exec_command i s hi
    exact h ▸ notRefused_controllerCommand _ _ _ _
  | true =>
    cases hfail : firstFailure i s with
    | some e => exact exec_rejected hi hfail ▸ notRefused_next _
    | none => exact exec_eq_bodyOf hi hfail ▸ notRefused_bodyOf (operandsLegal_of_firstFailure_none hfail)

/-- Settles O5: step takes the word and runs what it decodes to. -/
theorem stepRunsDecodedInstruction : Obligations.StepRunsDecodedInstruction := by
  intro s w rest i hport hdec
  simp only [step, fetch, hport, hdec]

/-- A bare controller word that does not decode is refused. -/
theorem undecoded_command {fam : Family} {w : PortWord} {e : DecodeError} (hw : ∀ v p, w ≠ .req v p) (h : decode fam w = .error e)
    (s : State) : undecoded e s = .refused .notEncoderProduct := by
  cases w with
  | req v p => exact absurd rfl (hw v p)
  | hdCmd v =>
    simp only [decode, decodeHd44780] at h
    split_ifs at h <;> cases h <;> rfl
  | hdNibble n =>
    simp only [decode, decodeNibble] at h
    split_ifs at h
    cases h
    rfl
  | oledCmd bs =>
    simp only [decode, decodeOled] at h
    split at h
    case h_3 => cases h; rfl
    all_goals
      split_ifs at h
      cases h
      rfl

/-- A step is refused exactly when the head of the port is a bare controller word that does not decode. -/
theorem step_refused_iff (s : State) (r : Refusal) : step s = .refused r ↔
    r = .notEncoderProduct ∧ ∃ w rest, s.port = w :: rest ∧ (∀ v p, w ≠ .req v p) ∧ ∀ i, decode s.family w ≠ .ok i := by
  constructor
  · intro h
    cases hport : s.port with
    | nil => simp only [step, fetch, hport] at h; cases h
    | cons w rest =>
      cases hdec : decode s.family w with
      | ok i =>
        rw [stepRunsDecodedInstruction s w rest i hport hdec] at h
        exact absurd h (notRefused_exec _ _ _)
      | error e =>
        have hno : ∀ i, decode s.family w ≠ .ok i := fun i => hdec ▸ nofun
        have hw : ∀ v p, w ≠ .req v p := by
          rintro v p rfl
          exact nomatch (step_illegalOp hport hno).symm.trans h
        rw [step_undecoded hport hdec, undecoded_command hw hdec] at h
        cases h
        exact ⟨rfl, w, rest, rfl, hw, hdec ▸ hno⟩
  · rintro ⟨rfl, w, rest, hport, hw, hno⟩
    cases hdec : decode s.family w with
    | ok i => exact absurd hdec (hno i)
    | error e => rw [step_undecoded hport hdec, undecoded_command hw hdec]

/-- Whether a word decodes at all can be computed. -/
theorem not_ok_iff {x : Except DecodeError Instr} : (∀ i, x ≠ .ok i) ↔ x.isOk = false := by
  cases x with
  | ok i => exact ⟨fun h => absurd rfl (h i), nofun⟩
  | error e => exact ⟨fun _ => rfl, nofun⟩

theorem decodeHd44780_fails_iff (v : Byte) :
    (decodeHd44780 v).isOk = false ↔ v = 0x00 ∨ (0x10 ≤ v.toNat ∧ v.toNat ≤ 0x1F) := by
  revert v; decide

theorem decodeNibble_fails_iff (n : BitVec 4) : (decodeNibble n).isOk = false ↔ n ≠ 0x2 ∧ n ≠ 0x3 := by
  revert n; decide

theorem decodeOled_single_fails_iff (c : Byte) :
    (decodeOled [c]).isOk = false ↔ [c] ∉ [[(0xA4 : Byte)], [0xA5], [0xA6], [0xA7], [0xAE], [0xAF]] := by
  revert c; decide

theorem decodeOled_fails_iff (bs : List Byte) : (decodeOled bs).isOk = false ↔
    (∀ v, bs ≠ [0x81, v]) ∧ bs ∉ [[(0xA4 : Byte)], [0xA5], [0xA6], [0xA7], [0xAE], [0xAF]] := by
  match bs with
  | [] => simp [decodeOled, Except.isOk, Except.toBool]
  | [c] => simpa using decodeOled_single_fails_iff c
  | [c, v] =>
    by_cases hc : c = 0x81
    · simp [decodeOled, hc, Except.isOk, Except.toBool]
    · rw [decodeOled, if_neg hc]
      simpa [Except.isOk, Except.toBool] using hc
  | _ :: _ :: _ :: _ => simp [decodeOled, Except.isOk, Except.toBool]

/-- Settles O7: no instruction is refused and an illegal OP is answered, so only undecodable bare words are refused. -/
theorem onlyUndecodableBytesAreRefused : Obligations.OnlyUndecodableBytesAreRefused :=
  ⟨notRefused_exec, step_refused_iff, fun _ v => not_ok_iff.trans (decodeHd44780_fails_iff v),
    fun _ n => not_ok_iff.trans (decodeNibble_fails_iff n), fun _ bs => not_ok_iff.trans (decodeOled_fails_iff bs)⟩

end Sys2Proof.Machine

/-! What every step keeps: the port, the parameters, the invariant of the state and the shape of the trace, and who writes what. -/

namespace Sys2Proof.Machine

-- what is left when only the outputs changed

section
variable {s t : State}

theorem OnlyOutputs.params (h : OnlyOutputs s t) : t.params = s.params := (congrArg State.params h :)
theorem OnlyOutputs.lifecycle (h : OnlyOutputs s t) : t.lifecycle = s.lifecycle := (congrArg State.lifecycle h :)
theorem OnlyOutputs.displayOn (h : OnlyOutputs s t) : t.displayOn = s.displayOn := (congrArg State.displayOn h :)
theorem OnlyOutputs.cursorOn (h : OnlyOutputs s t) : t.cursorOn = s.cursorOn := (congrArg State.cursorOn h :)
theorem OnlyOutputs.blinkOn (h : OnlyOutputs s t) : t.blinkOn = s.blinkOn := (congrArg State.blinkOn h :)
theorem OnlyOutputs.backlight (h : OnlyOutputs s t) : t.backlight = s.backlight := (congrArg State.backlight h :)
theorem OnlyOutputs.variant (h : OnlyOutputs s t) : t.variant = s.variant := (congrArg State.variant h :)
theorem OnlyOutputs.width (h : OnlyOutputs s t) : t.width = s.width := (congrArg State.width h :)
theorem OnlyOutputs.height (h : OnlyOutputs s t) : t.height = s.height := (congrArg State.height h :)
theorem OnlyOutputs.lineOffset0 (h : OnlyOutputs s t) : t.lineOffset0 = s.lineOffset0 := (congrArg State.lineOffset0 h :)
theorem OnlyOutputs.lineOffset1 (h : OnlyOutputs s t) : t.lineOffset1 = s.lineOffset1 := (congrArg State.lineOffset1 h :)
theorem OnlyOutputs.lineOffset2 (h : OnlyOutputs s t) : t.lineOffset2 = s.lineOffset2 := (congrArg State.lineOffset2 h :)
theorem OnlyOutputs.lineOffset3 (h : OnlyOutputs s t) : t.lineOffset3 = s.lineOffset3 := (congrArg State.lineOffset3 h :)
theorem OnlyOutputs.store (h : OnlyOutputs s t) : t.store = s.store := (congrArg State.store h :)
theorem OnlyOutputs.handleHeld (h : OnlyOutputs s t) : t.handleHeld = s.handleHeld := (congrArg State.handleHeld h :)
theorem OnlyOutputs.port (h : OnlyOutputs s t) : t.port = s.port := (congrArg State.port h :)

end

/-- Nothing INIT alone writes differs: the parameters and the geometry (10_state.md R39). -/
structure SameGeometry (s t : State) : Prop where
  params  : t.params = s.params
  variant : t.variant = s.variant
  width   : t.width = s.width
  height  : t.height = s.height
  row0    : t.lineOffset0 = s.lineOffset0
  row1    : t.lineOffset1 = s.lineOffset1
  row2    : t.lineOffset2 = s.lineOffset2
  row3    : t.lineOffset3 = s.lineOffset3

theorem SameGeometry.refl (s : State) : SameGeometry s s := ⟨rfl, rfl, rfl, rfl, rfl, rfl, rfl, rfl⟩

theorem SameGeometry.trans {s t u : State} (h : SameGeometry s t) (h' : SameGeometry t u) : SameGeometry s u :=
  ⟨h'.params.trans h.params, h'.variant.trans h.variant, h'.width.trans h.width, h'.height.trans h.height,
    h'.row0.trans h.row0, h'.row1.trans h.row1, h'.row2.trans h.row2, h'.row3.trans h.row3⟩

theorem SameGeometry.unset {s t : State} (h : SameGeometry s t) (hs : GeometryUnset s) : GeometryUnset t :=
  ⟨h.variant.trans hs.variant, h.width.trans hs.width, h.height.trans hs.height, h.row0.trans hs.row0, h.row1.trans hs.row1,
    h.row2.trans hs.row2, h.row3.trans hs.row3⟩

theorem SameGeometry.is {s t : State} {g : Geometry} (h : SameGeometry s t) (hs : GeometryIs s g) : GeometryIs t g :=
  ⟨by rw [h.params, h.variant, hs.listed], h.width.trans hs.width, h.height.trans hs.height, h.row0.trans hs.row0,
    h.row1.trans hs.row1, h.row2.trans hs.row2, h.row3.trans hs.row3⟩

theorem OnlyOutputs.sameGeometry {s t : State} (h : OnlyOutputs s t) : SameGeometry s t :=
  ⟨h.params, h.variant, h.width, h.height, h.lineOffset0, h.lineOffset1, h.lineOffset2, h.lineOffset3⟩

theorem writesOf_sameGeometry (i : Instr) (s : State) : SameGeometry s (writesOf i s) :=
  ⟨writesOf_params i s, writesOf_variant i s, writesOf_width i s, writesOf_height i s, writesOf_lineOffset0 i s,
    writesOf_lineOffset1 i s, writesOf_lineOffset2 i s, writesOf_lineOffset3 i s⟩

-- every next state is some state writes, then outputs alone

/-- The state after the state writes of an instruction, before its outputs (45_high_level_ops.md R264). -/
inductive Written (i : Instr) (s : State) : State → Prop where
  | unchanged : Written i s s
  | writes (hs : sends i = true) (hl : s.lifecycle = .ready) (hf : i.onlyFamily = some s.family)
      (hlen : i.lengthLegal s.params = true) (ho : i.operandsLegal s.params = true) : Written i s (writesOf i s)
  | released (h : i.isTeardown = true) (hl : s.lifecycle ≠ .released) : Written i s s.releaseHandle
  | init (w : State) (h : InitBegun i s w) (l : Lifecycle) (hl : l = .ready ∨ l = .failed) : Written i s (w.setLifecycle l)

/-- `u` is the state after the writes of `i`, and `t` differs from it in its outputs alone, `evs` being the events after those writes. -/
structure Ran (i : Instr) (s u : State) (evs : List Event) (t : State) : Prop where
  written : Written i s u
  outputs : OnlyOutputs u t
  trace   : t.trace = u.trace ++ evs
  fit     : s.params.masksWf → FitEvents s.params evs

theorem ran_unchanged {i : Instr} {s t : State} (ho : OnlyOutputs s t) (ht : t.trace = s.trace) : Ran i s s [] t :=
  ⟨.unchanged, ho, by rw [ht, List.append_nil], fun _ => .nil _⟩

theorem InitBegun.params {i : Instr} {s w : State} (h : InitBegun i s w) : w.params = s.params := by
  obtain ⟨v, bl, on, r, c, p, g, -, -, rfl⟩ := h.isInit
  rfl

theorem Next.ran {i : Instr} {s t : State} (h : Next i s t) : ∃ u evs, Ran i s u evs t := by
  cases h with
  | rejected | readRegRejected | readReg | glyph | allGlyphs | teardownAgain => exact ⟨s, [], ran_unchanged rfl rfl⟩
  | teardown h hl => exact ⟨_, [], .released h hl, rfl, (List.append_nil _).symm, fun _ => .nil _⟩
  | sent hs hl hf hw => exact ⟨_, _, .writes hs hl hf hw.1 hw.2, rfl, rfl, fun hm => fit_trafficOf i s hm hf hw.1⟩
  | cut hs hl hf hw k => exact ⟨_, _, .writes hs hl hf hw.1 hw.2, rfl, rfl, fun hm => (fit_trafficOf i s hm hf hw.1).cut k⟩
  | commandSent hi _ hf => exact ⟨s, _, .unchanged, rfl, rfl, fun hm => fit_trafficOf i s hm hf (lengthLegal_of_command i _ hi)⟩
  | commandCut hi _ hf k =>
    exact ⟨s, _, .unchanged, rfl, rfl, fun hm => (fit_trafficOf i s hm hf (lengthLegal_of_command i _ hi)).cut k⟩
  | initDone w h =>
    exact ⟨_, initBefore w ++ initAfter w, .init w h .ready (.inl rfl), rfl, List.append_assoc .., fun hm => h.params ▸
      (fit_init w (h.params ▸ hm)).1.append (fit_init w (h.params ▸ hm)).2⟩
  | initCutBefore w h k =>
    exact ⟨_, _, .init w h .failed (.inr rfl), rfl, rfl, fun hm => h.params ▸ (fit_init w (h.params ▸ hm)).1.cut k⟩
  | initCutAfter w h k =>
    exact ⟨_, initBefore w ++ cutAfterBus k (initAfter w), .init w h .ready (.inl rfl), rfl, List.append_assoc .., fun hm =>
      h.params ▸ (fit_init w (h.params ▸ hm)).1.append ((fit_init w (h.params ▸ hm)).2.cut k)⟩

theorem exec_ran {i : Instr} {s t : State} (h : exec i s = .next t) : ∃ u evs, Ran i s u evs t := (exec_next i s t h).ran

-- what no write touches

theorem Written.params {i : Instr} {s u : State} (h : Written i s u) : u.params = s.params := by
  cases h with
  | unchanged | released => rfl
  | writes => exact writesOf_params i s
  | init w h => exact h.params

theorem Written.port {i : Instr} {s u : State} (h : Written i s u) : u.port = s.port := by
  cases h with
  | unchanged | released => rfl
  | writes => exact writesOf_port i s
  | init w h =>
    obtain ⟨v, bl, on, r, c, p, g, -, -, rfl⟩ := h.isInit
    rfl

theorem exec_params {i : Instr} {s t : State} (h : exec i s = .next t) : t.params = s.params := by
  obtain ⟨u, evs, hran⟩ := exec_ran h
  exact hran.outputs.params.trans hran.written.params

theorem exec_port {i : Instr} {s t : State} (h : exec i s = .next t) : t.port = s.port := by
  obtain ⟨u, evs, hran⟩ := exec_ran h
  exact hran.outputs.port.trans hran.written.port

/-- Settles O8: no write touches the parameters. -/
theorem parametersAreFixed : Obligations.ParametersAreFixed := by
  intro s t h
  rcases step_next s t h with ⟨-, rfl⟩ | ⟨w, rest, -, rfl | ⟨i, -, hexec⟩⟩
  · rfl
  · rfl
  · exact (exec_params hexec :)

/-- Settles O6: the word is taken before the instruction runs, and no write touches the port. -/
theorem streamAdvancesByOne : Obligations.StreamAdvancesByOne := by
  intro s t h
  rcases step_next s t h with ⟨hport, rfl⟩ | ⟨w, rest, hport, rfl | ⟨i, -, hexec⟩⟩
  · exact ⟨by rw [hport]; rfl, fun _ => rfl⟩
  all_goals refine ⟨?_, fun hnil => nomatch hport.symm.trans hnil⟩
  · rw [hport]; rfl
  · rw [hport]; exact (exec_port hexec :)

-- the invariant of the state

/-- The glyph writers keep the canonical form: a slot, or all of the store, lies inside it (20_memory.md R72). -/
theorem writesOf_store_wf {i : Instr} {s : State} (hwf : s.store.wf) (hlen : i.lengthLegal s.params = true)
    (ho : i.operandsLegal s.params = true) : (writesOf i s).store.wf := by
  cases i with
  | setGlyph k b c p =>
    have hk : k.toNat ≤ 7 := BitVec.le_def.mp (of_decide_eq_true ho)
    have hp : p.length = 8 := eq_of_beq hlen
    exact Memory.wf_writeN _ hwf _ _ (by omega)
  | setAllGlyphs a b c p =>
    have hp : p.length = 64 := eq_of_beq hlen
    exact Memory.wf_writeN _ hwf _ _ (by omega)
  | _ => exact hwf

/-- No request of the graphic family writes a cursor flag (90_conflicts.md C11). -/
theorem writesOf_cursor_graphic {i : Instr} {s : State} (hf : i.onlyFamily = some s.family) (hg : s.family = .graphic) :
    (writesOf i s).cursorOn = s.cursorOn ∧ (writesOf i s).blinkOn = s.blinkOn := by
  cases i with
  | setCursorStyle => exact nomatch hf.trans (congrArg some hg)
  | _ => exact ⟨rfl, rfl⟩

/-- INIT leaves the geometry of the variant it took. -/
theorem InitBegun.geometry {i : Instr} {s w : State} (h : InitBegun i s w) : ∃ g, GeometryIs w g := by
  obtain ⟨v, bl, on, r, c, p, g, -, hg, rfl⟩ := h.isInit
  exact ⟨g, hg, rfl, rfl, rfl, rfl, rfl, rfl⟩

theorem Written.blockInv {i : Instr} {s u : State} (h : Written i s u) (hinv : BlockInv s) : BlockInv u := by
  cases h with
  | unchanged => exact hinv
  | writes hs hl hf hlen ho =>
    have hgeo := writesOf_sameGeometry i s
    exact {
      params   := by rw [hgeo.params]; exact hinv.params
      store    := writesOf_store_wf hinv.store hlen ho
      handle   := by rw [writesOf_handleHeld, writesOf_lifecycle]; exact hinv.handle
      status   := by rw [writesOf_lastStatus]; exact hinv.status
      geometry := hinv.geometry.imp hgeo.unset fun ⟨g, hg⟩ => ⟨g, hgeo.is hg⟩
      accepted := fun _ => (hinv.accepted (.inl hl)).imp fun g hg => hgeo.is hg
      fresh    := fun hu => by rw [writesOf_lifecycle, hl] at hu; cases hu
      graphic  := fun hg => by
        have hfam : s.family = .graphic := (congrArg Params.family hgeo.params).symm.trans hg
        obtain ⟨hcursor, hblink⟩ := writesOf_cursor_graphic hf hfam
        rw [hcursor, hblink]
        exact hinv.graphic hfam
      released := by rw [writesOf_trace, writesOf_handleHeld]; exact hinv.released }
  | released ht hl =>
    have hheld : s.handleHeld = true := hinv.handle.mpr hl
    have hcount : releaseCount s.trace = 0 := by rw [hinv.released, hheld]; rfl
    exact {
      params   := hinv.params
      store    := hinv.store
      handle   := by simp
      status   := hinv.status
      geometry := hinv.geometry.imp (fun hg => ⟨hg.variant, hg.width, hg.height, hg.row0, hg.row1, hg.row2, hg.row3⟩)
        fun ⟨g, hg⟩ => ⟨g, hg.listed, hg.width, hg.height, hg.row0, hg.row1, hg.row2, hg.row3⟩
      accepted := by simp
      fresh    := by simp
      graphic  := hinv.graphic
      released := by simp [hcount] }
  | init w hw l hl =>
    have hheld : s.handleHeld = true := hinv.handle.mpr (hw.uninitialized ▸ nofun)
    obtain ⟨v, bl, on, r, c, p, g, -, hg, rfl⟩ := hw.isInit
    have hgeo : GeometryIs ((initWrites v g bl on s).setLifecycle l) g := ⟨hg, rfl, rfl, rfl, rfl, rfl, rfl⟩
    exact {
      params   := hinv.params
      store    := hinv.store
      handle   := ⟨fun _ => by rcases hl with rfl | rfl <;> nofun, fun _ => hheld⟩
      status   := hinv.status
      geometry := .inr ⟨g, hgeo⟩
      accepted := fun _ => ⟨g, hgeo⟩
      fresh    := by rcases hl with rfl | rfl <;> nofun
      graphic  := fun _ => ⟨rfl, rfl⟩
      released := hinv.released }

/-- LAST_STATUS is left, or the code of a status is written. -/
theorem Next.lastStatus {i : Instr} {s t : State} (h : Next i s t) : t.lastStatus = s.lastStatus ∨ ∃ st, t.lastStatus = Status.code st := by
  cases h with
  | readRegRejected | readReg | commandSent => exact .inl rfl
  | rejected e => exact .inr ⟨e, rfl⟩
  | glyph | allGlyphs | teardown | teardownAgain | sent | initDone => exact .inr ⟨.ok, rfl⟩
  | cut | commandCut | initCutBefore | initCutAfter => exact .inr ⟨.transport, rfl⟩

theorem Status.code_le (st : Status) : st.code.toNat ≤ 0x0C := by cases st <;> decide

/-- The outputs and the port keep the invariant, if the new LAST_STATUS is in range and no release was emitted. -/
theorem BlockInv.of_outputs {u t : State} {evs : List Event} (hinv : BlockInv u) (h : OnlyOutputs { u with port := t.port } t)
    (hstatus : t.lastStatus.toNat ≤ 0x0C) (htrace : t.trace = u.trace ++ evs) (hevs : releaseCount evs = 0) : BlockInv t := by
  have hgeo : SameGeometry u t :=
    ⟨h.params, h.variant, h.width, h.height, h.lineOffset0, h.lineOffset1, h.lineOffset2, h.lineOffset3⟩
  have hlife : t.lifecycle = u.lifecycle := h.lifecycle
  exact {
    params   := hgeo.params ▸ hinv.params
    store    := (h.store : t.store = u.store) ▸ hinv.store
    handle   := by rw [h.handleHeld, hlife]; exact hinv.handle
    status   := hstatus
    geometry := hinv.geometry.imp hgeo.unset fun ⟨g, hg⟩ => ⟨g, hgeo.is hg⟩
    accepted := fun hl => (hinv.accepted (hlife ▸ hl)).imp fun g hg => hgeo.is hg
    fresh    := fun hl => by
      obtain ⟨hunset, hflags⟩ := hinv.fresh (hlife ▸ hl)
      exact ⟨hgeo.unset hunset, h.displayOn.trans hflags.display, h.cursorOn.trans hflags.cursor, h.blinkOn.trans hflags.blink,
        h.backlight.trans hflags.backlight⟩
    graphic  := fun hf => by
      rw [h.cursorOn, h.blinkOn]
      exact hinv.graphic ((congrArg Params.family hgeo.params).symm.trans hf)
    released := by rw [htrace, releaseCount_append, hevs, h.handleHeld]; exact hinv.released }

/-- Taking a word from the port keeps the invariant, which does not speak of the port. -/
theorem BlockInv.take {s : State} (h : BlockInv s) (rest : List PortWord) : BlockInv { s with port := rest } :=
  h.of_outputs rfl h.status (List.append_nil _).symm rfl

theorem exec_blockInv {i : Instr} {s t : State} (hinv : BlockInv s) (h : exec i s = .next t) : BlockInv t := by
  obtain ⟨u, evs, hran⟩ := exec_ran h
  refine (hran.written.blockInv hinv).of_outputs (hran.outputs.port ▸ hran.outputs) ?_ hran.trace (hran.fit hinv.params.1).noRelease
  rcases (exec_next i s t h).lastStatus with hst | ⟨st, hst⟩
  · exact hst ▸ hinv.status
  · exact hst ▸ Status.code_le st

/-- Settles O11: the writes keep the invariant, and the outputs keep it. -/
theorem stepKeepsInv : Obligations.StepKeepsInv := by
  intro s t hinv h
  rcases step_next s t h with ⟨-, rfl⟩ | ⟨w, rest, -, rfl | ⟨i, -, hexec⟩⟩
  · exact hinv
  · exact hinv.of_outputs rfl (Status.code_le .illegalOp) (List.append_nil _).symm rfl
  · exact exec_blockInv (hinv.take rest) hexec

-- the shape of the trace

/-- The writes add the release at most. -/
theorem Written.traceOk {i : Instr} {s u : State} (h : Written i s u) (hok : TraceOk s) : ∀ e ∈ u.trace, eventOk s.params e := by
  cases h with
  | unchanged => exact hok
  | writes => rw [writesOf_trace]; exact hok
  | released =>
    intro e he
    rcases List.mem_append.mp he with he | he
    · exact hok e he
    · cases List.mem_singleton.mp he; trivial
  | init w h =>
    obtain ⟨v, bl, on, r, c, p, g, -, -, rfl⟩ := h.isInit
    exact hok

theorem exec_traceOk {i : Instr} {s t : State} (hm : s.params.masksWf) (hok : TraceOk s) (h : exec i s = .next t) : TraceOk t := by
  obtain ⟨u, evs, hran⟩ := exec_ran h
  intro e he
  rw [exec_params h]
  rcases List.mem_append.mp (hran.trace ▸ he) with he | he
  · exact hran.written.traceOk hok e he
  · exact (hran.fit hm).ok e he

/-- Settles O12: every event an instruction adds is fit for the block's family. -/
theorem stepKeepsTraceOk : Obligations.StepKeepsTraceOk := by
  intro s t hwf hok h
  rcases step_next s t h with ⟨-, rfl⟩ | ⟨w, rest, -, rfl | ⟨i, -, hexec⟩⟩
  · exact hok
  · exact hok
  · exact exec_traceOk (s := { s with port := rest }) hwf.1 hok hexec

end Sys2Proof.Machine

/-! What reset leaves, who writes the lifecycle, BUS_DESYNC, the flags, the geometry and the store, and what a response holds. -/

namespace Sys2Proof.Machine

-- reset (70_reset_and_hazards.md R340)

/-- Settles O9: the values of `State.resetWith`. -/
theorem resetLeavesTheStatedValues : Obligations.ResetLeavesTheStatedValues :=
  fun _ => ⟨rfl, rfl, rfl, rfl, rfl, rfl, rfl, rfl, rfl, rfl, rfl, rfl, rfl, rfl, rfl, rfl, rfl⟩

/-- A dimension that is one more than a number below 255 does not wrap to 0. -/
theorem ofNat_succ_ne_zero (n : Fin 255) : BitVec.ofNat 8 (n.val + 1) ≠ 0 := by
  have := n.isLt
  bv_omega

theorem configParams_wf : Config.params.wf := by
  refine ⟨⟨.inr (.inl rfl), .inr (.inr rfl), by decide, by decide⟩, ?_⟩
  refine ⟨Nat.le_add_right .., Nat.le_add_right .., Nat.le_add_right .., Nat.le_add_right .., ?_⟩
  exact ⟨by decide, by decide, by decide, ofNat_succ_ne_zero _, ofNat_succ_ne_zero _⟩

theorem geometryUnset_resetWith (q : Params) : GeometryUnset (State.resetWith q) := ⟨rfl, rfl, rfl, rfl, rfl, rfl, rfl⟩

theorem blockInv_resetWith {q : Params} (hq : q.wf) : BlockInv (State.resetWith q) where
  params   := hq
  store    := Memory.wf_atReset
  handle   := ⟨fun _ => nofun, fun _ => rfl⟩
  status   := Nat.zero_le _
  geometry := .inl (geometryUnset_resetWith q)
  accepted := by rintro (h | h) <;> cases h
  fresh    := fun _ => ⟨geometryUnset_resetWith q, ⟨rfl, rfl, rfl, rfl⟩⟩
  graphic  := fun _ => ⟨rfl, rfl⟩
  released := rfl

/-- Settles O10: the orders of R12 hold by the excesses, and the trace is empty. -/
theorem resetMeetsTheInvariants : Obligations.ResetMeetsTheInvariants :=
  ⟨configParams_wf, fun _ hq => ⟨blockInv_resetWith hq, nofun⟩⟩

-- the lifecycle and BUS_DESYNC (60_exceptions.md R316, 10_state.md R33)

theorem InitBegun.isInit_eq {i : Instr} {s w : State} (h : InitBegun i s w) : i.isInit = true := by
  obtain ⟨v, bl, on, r, c, p, g, rfl, -, -⟩ := h.isInit
  rfl

/-- Settles O13: of all next states only those of INIT and of the releasing TEARDOWN change the lifecycle. -/
theorem lifecycleChangesOnlyAsStated : Obligations.LifecycleChangesOnlyAsStated := by
  intro i s t h hne
  cases exec_next i s t h with
  | rejected | readRegRejected | readReg | glyph | allGlyphs | teardownAgain | commandSent | commandCut => exact absurd rfl hne
  | sent | cut => exact absurd (writesOf_lifecycle i s) hne
  | teardown ht hl => exact .inr ⟨ht, hl, rfl⟩
  | initDone w hw | initCutAfter w hw => exact .inl ⟨hw.isInit_eq, hw.uninitialized, .inl rfl⟩
  | initCutBefore w hw => exact .inl ⟨hw.isInit_eq, hw.uninitialized, .inr ⟨rfl, rfl⟩⟩

/-- Settles O14: BUS_DESYNC is set by the transport error alone and left by everything else. -/
theorem desyncIsSticky : Obligations.DesyncIsSticky := by
  intro i s t h
  cases exec_next i s t h with
  | cut | commandCut | initCutBefore | initCutAfter => exact ⟨fun _ => rfl, fun _ => .inr ⟨rfl, _, rfl⟩⟩
  | rejected | readRegRejected | readReg | glyph | allGlyphs | teardown | teardownAgain | commandSent => exact ⟨id, .inl⟩
  | sent =>
    have hsame : (writesOf i s).busDesync = s.busDesync := writesOf_busDesync i s
    exact ⟨hsame.trans, fun hd => .inl (hsame.symm.trans hd)⟩
  | initDone w hw =>
    obtain ⟨v, bl, on, r, c, p, g, -, -, rfl⟩ := hw.isInit
    exact ⟨id, .inl⟩

-- the flags, the geometry and the store (10_state.md R36, R39, R42)

/-- Outside INIT the writes are those of `writesOf`, or leave every flag, the geometry and the store. -/
theorem Written.of_not_init {i : Instr} {s u : State} (h : Written i s u) (hi : i.isInit = false) :
    u = s ∨ u = writesOf i s ∨ u = s.releaseHandle := by
  cases h with
  | unchanged => exact .inl rfl
  | writes => exact .inr (.inl rfl)
  | released => exact .inr (.inr rfl)
  | init w h => exact nomatch hi.symm.trans h.isInit_eq

theorem writesOf_displayOn {i : Instr} {s : State} (h : (writesOf i s).displayOn ≠ s.displayOn) :
    ∃ on r b c p, i = .setDisplayOnChar on r b c p ∨ i = .setDisplayOnGraphic on r b c p := by
  cases i with
  | setDisplayOnChar => exact ⟨_, _, _, _, _, .inl rfl⟩
  | setDisplayOnGraphic => exact ⟨_, _, _, _, _, .inr rfl⟩
  | _ => exact absurd rfl h

theorem writesOf_cursor {i : Instr} {s : State} (h : (writesOf i s).cursorOn ≠ s.cursorOn ∨ (writesOf i s).blinkOn ≠ s.blinkOn) :
    ∃ v k r b c p, i = .setCursorStyle v k r b c p := by
  cases i with
  | setCursorStyle => exact ⟨_, _, _, _, _, _, rfl⟩
  | _ => exact absurd h (not_or.mpr ⟨not_not.mpr rfl, not_not.mpr rfl⟩)

theorem writesOf_backlight {i : Instr} {s : State} (h : (writesOf i s).backlight ≠ s.backlight) :
    ∃ on r b c p, i = .setBacklight on r b c p := by
  cases i with
  | setBacklight => exact ⟨_, _, _, _, _, rfl⟩
  | _ => exact absurd rfl h

theorem writesOf_store {i : Instr} {s : State} (hk : ∀ k b c p, i ≠ .setGlyph k b c p) (ha : ∀ a b c p, i ≠ .setAllGlyphs a b c p) :
    (writesOf i s).store = s.store := by
  cases i with
  | setGlyph => exact absurd rfl (hk _ _ _ _)
  | setAllGlyphs => exact absurd rfl (ha _ _ _ _)
  | _ => rfl

/-- Settles O15: a flag that differs was written by `writesOf`, so by a request that names it. -/
theorem flagsWrittenOnlyByTheirRequests : Obligations.FlagsWrittenOnlyByTheirRequests := by
  refine ⟨fun i s t h hi => ?_, fun q => ⟨rfl, rfl, rfl, rfl⟩⟩
  obtain ⟨u, evs, hran⟩ := exec_ran h
  rw [hran.outputs.displayOn, hran.outputs.cursorOn, hran.outputs.blinkOn, hran.outputs.backlight]
  rcases hran.written.of_not_init hi with rfl | rfl | rfl
  case inr.inl => exact ⟨writesOf_displayOn, writesOf_cursor, writesOf_backlight⟩
  all_goals exact ⟨absurd rfl, fun h => h.elim (absurd rfl) (absurd rfl), absurd rfl⟩

theorem Written.sameGeometry {i : Instr} {s u : State} (h : Written i s u) (hi : i.isInit = false) : SameGeometry s u := by
  rcases h.of_not_init hi with rfl | rfl | rfl
  · exact .refl _
  · exact writesOf_sameGeometry i s
  · exact ⟨rfl, rfl, rfl, rfl, rfl, rfl, rfl, rfl⟩

/-- The store of an instruction that is no glyph writer, INIT among them. -/
theorem Written.store {i : Instr} {s u : State} (h : Written i s u) (hk : ∀ k b c p, i ≠ .setGlyph k b c p)
    (ha : ∀ a b c p, i ≠ .setAllGlyphs a b c p) : u.store = s.store := by
  cases h with
  | unchanged | released => rfl
  | writes => exact writesOf_store hk ha
  | init w h =>
    obtain ⟨v, bl, on, r, c, p, g, -, -, rfl⟩ := h.isInit
    rfl

/-- Settles O16: outputs aside, an instruction changes what its writes change. -/
theorem geometryAndStoreWriters : Obligations.GeometryAndStoreWriters := by
  intro i s t h
  obtain ⟨u, evs, hran⟩ := exec_ran h
  refine ⟨fun hi => ?_, fun hk ha => hran.outputs.store.trans (hran.written.store hk ha)⟩
  have hgeo := (hran.written.sameGeometry hi).trans hran.outputs.sameGeometry
  exact ⟨hgeo.variant, hgeo.width, hgeo.height, hgeo.row0, hgeo.row1, hgeo.row2, hgeo.row3⟩

-- responses (30_encoding.md R106)

/-- The bytes a request answers with OK: the value READ_REG reads, a slot, the whole store, else none. -/
def answerLength (i : Instr) : Nat :=
  match i with
  | .readReg _ _ _ _      => 1
  | .getGlyph _ _ _ _     => 8
  | .getAllGlyphs _ _ _ _ => 64
  | _                     => 0

/-- The shape of a response of R106, for a request that answers `n` bytes. -/
def ResponseOk (n : Nat) (r : Response) : Prop :=
  (r.cause ≠ none ↔ r.status = .transport) ∧ (r.status ≠ .ok → r.data = []) ∧ (r.status = .ok → r.data.length = n)

theorem responseOk_error {n : Nat} {e : Status} (he : e ≠ .ok ∧ e ≠ .transport) :
    ResponseOk n { status := e, cause := none, data := [] } :=
  ⟨⟨fun h => absurd rfl h, fun h => absurd h he.2⟩, fun _ => rfl, fun h => absurd h he.1⟩

theorem responseOk_ok {data : List Byte} : ResponseOk data.length { status := .ok, cause := none, data := data } :=
  ⟨⟨fun h => absurd rfl h, nofun⟩, fun h => absurd rfl h, fun _ => rfl⟩

theorem responseOk_transport (n : Nat) (c : Cause) : ResponseOk n { status := .transport, cause := some c, data := [] } :=
  ⟨⟨fun _ => rfl, fun _ => nofun⟩, fun _ => rfl, nofun⟩

theorem answerLength_of_sends {i : Instr} (h : sends i = true) : answerLength i = 0 := by
  cases i with
  | readReg | getGlyph | getAllGlyphs => cases h
  | _ => rfl

theorem answerLength_of_isTeardown {i : Instr} (h : i.isTeardown = true) : answerLength i = 0 := by
  cases i with
  | teardown => rfl
  | _ => cases h

theorem answerLength_of_isReadReg {i : Instr} (h : i.isReadReg = true) : answerLength i = 1 := by
  cases i with
  | readReg => rfl
  | _ => cases h

theorem InitBegun.answerLength {i : Instr} {s w : State} (h : InitBegun i s w) : answerLength i = 0 := by
  obtain ⟨v, bl, on, r, c, p, g, rfl, -, -⟩ := h.isInit
  rfl

theorem Next.responseOk {i : Instr} {s t : State} (h : Next i s t) (hi : i.isRequest = true) :
    ∃ r, t.response = some r ∧ ResponseOk (answerLength i) r := by
  cases h with
  | rejected _ _ he | readRegRejected _ _ he => exact ⟨_, rfl, responseOk_error he⟩
  | readReg v hr => exact ⟨_, rfl, answerLength_of_isReadReg hr ▸ responseOk_ok⟩
  | glyph k b c p bytes h hb => exact ⟨_, rfl, by rw [h, answerLength, ← Memory.readN_length _ _ _ _ hb]; exact responseOk_ok⟩
  | allGlyphs a b c p bytes h hb => exact ⟨_, rfl, by rw [h, answerLength, ← Memory.readN_length _ _ _ _ hb]; exact responseOk_ok⟩
  | teardown ht | teardownAgain ht => exact ⟨_, rfl, answerLength_of_isTeardown ht ▸ responseOk_ok⟩
  | sent hs => exact ⟨_, rfl, answerLength_of_sends hs ▸ responseOk_ok⟩
  | initDone w hw => exact ⟨_, rfl, hw.answerLength ▸ responseOk_ok⟩
  | cut | commandCut | initCutBefore | initCutAfter => exact ⟨_, rfl, responseOk_transport _ _⟩
  | commandSent h => exact nomatch hi.symm.trans h

/-- The OP of a decoded request tells how many bytes it answers (R102). -/
theorem answerLength_of_decode {fam : Family} {w : BitVec 32} {p : List Byte} {i : Instr} (h : decode fam (.req w p) = .ok i) :
    answerLength i = if w.toNat / 2 ^ 24 = 0x03 then 1 else if w.toNat / 2 ^ 24 = 0x1A then 8
      else if w.toNat / 2 ^ 24 = 0x1B then 64 else 0 := by
  obtain ⟨-, hread, hglyph, hall⟩ := decode_request_op h
  split_ifs with hop3 hop1A hop1B
  · exact answerLength_of_isReadReg (hread.mpr hop3)
  · obtain ⟨_, _, _, _, rfl⟩ := hglyph.mpr hop1A
    rfl
  · obtain ⟨_, _, _, _, rfl⟩ := hall.mpr hop1B
    rfl
  · cases i with
    | readReg => exact absurd (hread.mp rfl) hop3
    | getGlyph => exact absurd (hglyph.mp ⟨_, _, _, _, rfl⟩) hop1A
    | getAllGlyphs => exact absurd (hall.mp ⟨_, _, _, _, rfl⟩) hop1B
    | _ => rfl

/-- Settles O19: an illegal OP answers an error; a decoded request answers as its OP says. -/
theorem responseShape : Obligations.ResponseShape := by
  intro s t w p rest hport hstep
  rcases step_request hport hstep with ⟨rfl, -⟩ | ⟨i, hdec, hexec⟩
  · exact ⟨_, rfl, responseOk_error ⟨nofun, nofun⟩⟩
  · obtain ⟨r, hr, hok⟩ := (exec_next _ _ _ hexec).responseOk (decode_request_op hdec).1
    exact ⟨r, hr, answerLength_of_decode hdec ▸ hok⟩

-- after TEARDOWN (44_lifecycle.md R228)

/-- In RELEASED step 2 of R302 fails for every request but TEARDOWN and READ_REG. -/
theorem firstFailure_released {i : Instr} {s : State} (hl : s.lifecycle = .released) (ht : i.isTeardown = false)
    (hr : i.isReadReg = false) : firstFailure i s = some .released := by
  simp only [firstFailure, orderedChecks, firstFailing_cons, hl, ht, hr]
  rfl

theorem exec_released {i : Instr} {s : State} (hl : s.lifecycle = .released) (ht : i.isTeardown = false)
    (hr : i.isReadReg = false) : exec i s = .next (raise .released s) := by
  cases hi : i.isRequest with
  | true =>
    rw [exec_rejected hi (firstFailure_released hl ht hr), rejected, hr]
    rfl
  | false =>
    obtain ⟨fam, -, h⟩ := exec_command i s hi
    exact h.trans (if_pos hl)

/-- In RELEASED an instruction adds no event and does not leave the state. -/
theorem Next.quiet_of_released {i : Instr} {s t : State} (h : Next i s t) (hl : s.lifecycle = .released) :
    t.trace = s.trace ∧ t.lifecycle = .released := by
  cases h with
  | rejected | readRegRejected | readReg | glyph | allGlyphs | teardownAgain => exact ⟨rfl, hl⟩
  | teardown _ hne | commandSent _ hne | commandCut _ hne => exact absurd hl hne
  | sent _ hready | cut _ hready => exact nomatch hl.symm.trans hready
  | initDone w hw | initCutBefore w hw | initCutAfter w hw => exact nomatch hl.symm.trans hw.uninitialized

/-- Settles O20: step 2 of R302 answers, and what may still run is silent. -/
theorem afterTeardownOnlyErrReleased : Obligations.AfterTeardownOnlyErrReleased := by
  refine ⟨fun i s hl ht hr => exec_released hl ht hr, fun s t hl h => ?_⟩
  rcases step_next s t h with ⟨-, rfl⟩ | ⟨w, rest, -, rfl | ⟨i, -, hexec⟩⟩
  · exact ⟨rfl, hl⟩
  · exact ⟨rfl, hl⟩
  · exact (exec_next _ _ _ hexec).quiet_of_released hl

end Sys2Proof.Machine

/-! Frames: what each group of instructions may change beside the outputs. -/

namespace Sys2Proof.Machine

/-- An instruction that is neither INIT nor TEARDOWN changes, outputs aside, nothing or what its writes change. -/
theorem exec_frame {i : Instr} {s t : State} (hi : i.isInit = false) (ht : i.isTeardown = false) (h : exec i s = .next t) :
    ∃ u, OnlyOutputs u t ∧ (u = s ∨ (u = writesOf i s ∧ i.lengthLegal s.params = true)) := by
  obtain ⟨u, evs, hran⟩ := exec_ran h
  refine ⟨u, hran.outputs, ?_⟩
  cases hran.written with
  | unchanged => exact .inl rfl
  | writes _ _ _ hlen => exact .inr ⟨rfl, hlen⟩
  | released h => exact nomatch ht.symm.trans h
  | init w h => exact nomatch hi.symm.trans h.isInit_eq

-- the requests that write no state, and the bare controller commands (10_state.md R46)

/-- An instruction that is neither INIT nor TEARDOWN and has no state writes. -/
def WritesNothing (i : Instr) : Prop := i.isInit = false ∧ i.isTeardown = false ∧ ∀ s, writesOf i s = s

theorem exec_onlyOutputs {i : Instr} {s t : State} (hi : WritesNothing i) (h : exec i s = .next t) : OnlyOutputs s t := by
  obtain ⟨hinit, hteardown, hwrites⟩ := hi
  obtain ⟨u, hout, rfl | ⟨rfl, -⟩⟩ := exec_frame hinit hteardown h
  · exact hout
  · exact hwrites s ▸ hout

theorem writesNothing_of_command {i : Instr} (h : i.isRequest = false) : WritesNothing i := by
  cases i with
  | hdClear | hdHome | hdEntryMode | hdDisplayControl | hdFunctionSet | hdSetCgramAddr | hdSetDdramAddr | nibIfaceReset | nibIface4bit
  | oledSetContrast | oledAllOn | oledInverse | oledDisplay => exact ⟨rfl, rfl, fun _ => rfl⟩
  | _ => cases h

/-- Settles O57: none of the listed requests has state writes, and no bare command has. -/
theorem frameOfInstructionsThatWriteNoState : Obligations.FrameOfInstructionsThatWriteNoState := by
  intro s t a b c p x y z r5 r6 r7
  refine ⟨fun i hmem h => exec_onlyOutputs ?_ h, fun i hi h => exec_onlyOutputs (writesNothing_of_command hi) h⟩
  revert i
  simp [WritesNothing, Instr.isInit, Instr.isTeardown, writesOf]

-- the flag requests (10_state.md R36)

/-- Settles O58: the flags that differ hold what the request wrote. -/
theorem frameOfFlagRequests : Obligations.FrameOfFlagRequests := by
  intro s t x y r6 r7 b c p
  refine ⟨fun h => ?_, fun h => ?_, fun h => ?_, fun h => ?_⟩
  · obtain ⟨u, hout, hu⟩ := exec_frame rfl rfl h
    rw [hout.cursorOn, hout.blinkOn]
    rcases hu with rfl | ⟨rfl, -⟩ <;> exact hout
  · obtain ⟨u, hout, hu⟩ := exec_frame rfl rfl h
    rw [hout.displayOn]
    rcases hu with rfl | ⟨rfl, -⟩ <;> exact hout
  · obtain ⟨u, hout, hu⟩ := exec_frame rfl rfl h
    rw [hout.displayOn]
    rcases hu with rfl | ⟨rfl, -⟩ <;> exact hout
  · obtain ⟨u, hout, hu⟩ := exec_frame rfl rfl h
    rw [hout.backlight]
    rcases hu with rfl | ⟨rfl, -⟩ <;> exact hout

-- the glyph writers (45_high_level_ops.md R260, R261)

/-- Settles O59: outside the bytes written the store reads as before. -/
theorem frameOfGlyphWriters : Obligations.FrameOfGlyphWriters := by
  intro s t a b c p
  refine ⟨fun h => ?_, fun h => ?_⟩
  · obtain ⟨u, hout, hu⟩ := exec_frame rfl rfl h
    rw [hout.store]
    rcases hu with rfl | ⟨rfl, hlen⟩
    · exact ⟨hout, fun _ _ => rfl⟩
    · have hp : p.length = 8 := eq_of_beq hlen
      exact ⟨hout, fun k hk => Memory.read_writeN_outside _ _ _ _ (by rwa [hp])⟩
  · obtain ⟨u, hout, hu⟩ := exec_frame rfl rfl h
    rw [hout.store]
    rcases hu with rfl | ⟨rfl, hlen⟩
    · exact ⟨hout, fun _ _ => rfl⟩
    · have hp : p.length = 64 := eq_of_beq hlen
      exact ⟨hout, fun k hk => Memory.read_writeN_outside _ _ _ _ (.inr (by omega))⟩

-- the lifecycle requests (44_lifecycle.md R220, R227, R229)

/-- INIT writes the lifecycle, the geometry and the flags. -/
theorem exec_init_frame {s t : State} {v c : Byte} {bl on : Bool} {r : BitVec 6} {p : List Byte}
    (h : exec (.init v bl on r c p) s = .next t) :
    OnlyOutputs { s with lifecycle := t.lifecycle, variant := t.variant, width := t.width, height := t.height,
                         lineOffset0 := t.lineOffset0, lineOffset1 := t.lineOffset1, lineOffset2 := t.lineOffset2,
                         lineOffset3 := t.lineOffset3, displayOn := t.displayOn, cursorOn := t.cursorOn, blinkOn := t.blinkOn,
                         backlight := t.backlight } t := by
  obtain ⟨u, evs, hran⟩ := exec_ran h
  have hout := hran.outputs
  rw [hout.lifecycle, hout.variant, hout.width, hout.height, hout.lineOffset0, hout.lineOffset1, hout.lineOffset2, hout.lineOffset3,
    hout.displayOn, hout.cursorOn, hout.blinkOn, hout.backlight]
  cases hran.written with
  | unchanged => exact hout
  | writes hs => cases hs
  | released ht => cases ht
  | init w hw =>
    obtain ⟨_, _, _, _, _, _, _, -, -, rfl⟩ := hw.isInit
    exact hout

/-- TEARDOWN writes the handle and the lifecycle, and adds no transaction. -/
theorem exec_teardown_frame {s t : State} {a b c : Byte} {p : List Byte} (h : exec (.teardown a b c p) s = .next t) :
    t = { s with lifecycle := t.lifecycle, handleHeld := t.handleHeld, trace := t.trace, lastStatus := t.lastStatus,
                 response := t.response } ∧ busCount t.trace = busCount s.trace := by
  cases hfail : firstFailure (.teardown a b c p) s with
  | some e =>
    cases (exec_rejected rfl hfail).symm.trans h
    exact ⟨rfl, rfl⟩
  | none =>
    have hbody := (exec_accepted rfl rfl hfail).symm.trans h
    simp only [bodyOf] at hbody
    split at hbody <;> cases hbody
    · exact ⟨rfl, rfl⟩
    · exact ⟨rfl, by simp⟩

/-- Settles O60: READ_REG gives its response and does nothing else. -/
theorem frameOfLifecycleRequests : Obligations.FrameOfLifecycleRequests := by
  intro s t v a b c bl on r6 p
  refine ⟨exec_init_frame, exec_teardown_frame, fun h => ?_⟩
  obtain ⟨st, data, rfl⟩ := exec_readReg_next h
  rfl

end Sys2Proof.Machine

/-! The nibble transfer and its failing transactions, and the RS and BL bits of every frame (42_nibble_strobe.md R170, R173). -/

namespace Sys2Proof.Machine

-- the bits of a frame, for every legal mask (00_scope.md R11)

/-- The values a legal EN or BL mask takes. -/
def maskBits : List Byte := [0x02, 0x04, 0x08]

/-- A latch-low frame with backlight mask `m`. -/
def frameWith (m : Byte) (bl : Bool) (n : BitVec 4) (rs : Bool) : Byte :=
  (n.setWidth 8 <<< 4) ||| (if rs then maskRs else 0) ||| (if bl then m else 0)

theorem frame_eq_frameWith (q : Params) (bl : Bool) (n : BitVec 4) (rs : Bool) : frame q bl n rs = frameWith q.maskBl bl n rs := rfl

theorem maskBl_mem {q : Params} (hm : q.masksWf) : q.maskBl ∈ maskBits := by simpa [maskBits] using hm.2.1

theorem maskEn_mem {q : Params} (hm : q.masksWf) : q.maskEn ∈ maskBits := by simpa [maskBits] using hm.1

/-- Data, RS and BL are disjoint bits, so a frame is their sum. -/
theorem frameWith_toNat : ∀ m ∈ maskBits, ∀ bl n rs,
    (frameWith m bl n rs).toNat = 16 * n.toNat + rs.toNat + (if bl then m.toNat else 0) := by decide

/-- The latch bit is none of a frame's bits, so the pulse adds it. -/
theorem frameWith_pulse_toNat : ∀ m ∈ maskBits, ∀ en ∈ maskBits, en ≠ m → ∀ bl n rs,
    (frameWith m bl n rs ||| en).toNat = (frameWith m bl n rs).toNat + en.toNat := by decide

/-- A frame, with or without the latch bit, shows RS at bit 0. -/
theorem frameWith_rs : ∀ m ∈ maskBits, ∀ en ∈ maskBits, ∀ bl n rs,
    frameWith m bl n rs &&& 0x01 = (if rs then 0x01 else 0x00) ∧
    (frameWith m bl n rs ||| en) &&& 0x01 = (if rs then 0x01 else 0x00) := by decide

/-- And BL at its mask. -/
theorem frameWith_bl : ∀ m ∈ maskBits, ∀ en ∈ maskBits, en ≠ m → ∀ bl n rs,
    frameWith m bl n rs &&& m = (if bl then m else 0x00) ∧
    (frameWith m bl n rs ||| en) &&& m = (if bl then m else 0x00) := by decide

-- the nibble transfer (R170)

/-- Its third transaction comes after one wait only, so a failing transaction needs one served wait at most. -/
theorem emit_nibbleXfer_failed {q : Params} {bl rs : Bool} {n : BitVec 4} {s : State} {k : Nat} {c : Cause} (hk : k < 3)
    (hpre : s.env.acksBus k) (ha : s.env.answer k = .fail c) (hw : s.env.servesWaits 1) :
    emit (nibbleXfer q bl n rs) s = .failed c (s.sent (cutAfterBus k (nibbleXfer q bl n rs))) := by
  let f := frame q bl n rs
  let upToThird : List Event := [busEvent q [f], busEvent q [f ||| q.maskEn], .wait .latch q.tLatch, busEvent q [f]]
  have hsplit : nibbleXfer q bl n rs = upToThird ++ [.wait .proc q.tProc] := rfl
  have hcount : busCount upToThird = 3 := rfl
  rw [hsplit, emit_append, (emit_notAcknowledged k upToThird s (hcount ▸ hk) hpre hw).1 c ha, cutAfterBus_append, hcount, if_pos hk]

/-- Settles O26: the frame is the sum of its bits, and a failing transaction cuts the five events. -/
theorem nibbleTransfer : Obligations.NibbleTransfer := by
  intro q bl rs n hm
  refine ⟨frame q bl n rs, frameWith_toNat _ (maskBl_mem hm) bl n rs,
    frameWith_pulse_toNat _ (maskBl_mem hm) _ (maskEn_mem hm) hm.2.2.1 bl n rs, rfl, fun s k c hpre ha hw => ?_⟩
  refine ⟨?_, ?_, ?_⟩
  all_goals
    rintro rfl
    exact ⟨_, emit_nibbleXfer_failed (by decide) hpre ha hw, rfl⟩

-- the RS and BL bits (R173)

/-- The transactions of a nibble transfer carry its frame, with or without the latch bit. -/
theorem mem_nibbleXfer {q : Params} {bl rs : Bool} {n : BitVec 4} {a : BitVec 7} {f : Byte} (h : .bus a [f] ∈ nibbleXfer q bl n rs) :
    f = frame q bl n rs ∨ f = frame q bl n rs ||| q.maskEn := by
  simp only [nibbleXfer, busEvent, List.mem_cons, List.not_mem_nil, or_false] at h
  rcases h with h | h | h | h | h <;> cases h
  · exact .inl rfl
  · exact .inr rfl
  · exact .inl rfl

theorem mem_byteXfer {q : Params} {bl rs : Bool} {v : Byte} {a : BitVec 7} {f : Byte} (h : .bus a [f] ∈ byteXfer q bl v rs) :
    ∃ n, f = frame q bl n rs ∨ f = frame q bl n rs ||| q.maskEn :=
  (List.mem_append.mp h).elim (fun h => ⟨_, mem_nibbleXfer h⟩) (fun h => ⟨_, mem_nibbleXfer h⟩)

/-- Every single-byte transaction shows the backlight bit `bl`. -/
def CarriesBl (q : Params) (bl : Bool) (evs : List Event) : Prop :=
  ∀ a f, .bus a [f] ∈ evs → f &&& q.maskBl = if bl then q.maskBl else 0x00

theorem CarriesBl.nil {q : Params} {bl : Bool} : CarriesBl q bl [] := fun _ _ h => nomatch h

theorem CarriesBl.append {q : Params} {bl : Bool} {xs ys : List Event} (hx : CarriesBl q bl xs) (hy : CarriesBl q bl ys) :
    CarriesBl q bl (xs ++ ys) := fun a f h => (List.mem_append.mp h).elim (hx a f) (hy a f)

theorem CarriesBl.wait {q : Params} {bl : Bool} {k : WaitKind} {t : Nat} : CarriesBl q bl [.wait k t] :=
  fun _ _ h => nomatch List.mem_singleton.mp h

theorem CarriesBl.release {q : Params} {bl : Bool} : CarriesBl q bl [.release] := fun _ _ h => nomatch List.mem_singleton.mp h

theorem CarriesBl.cut {q : Params} {bl : Bool} {evs : List Event} (h : CarriesBl q bl evs) (k : Nat) :
    CarriesBl q bl (cutAfterBus k evs) := fun a f hmem => h a f (mem_of_mem_cutAfterBus hmem)

section
variable {q : Params} (hm : q.masksWf) (bl : Bool)
include hm

theorem carriesBl_nibbleXfer (n : BitVec 4) (rs : Bool) : CarriesBl q bl (nibbleXfer q bl n rs) := by
  intro a f h
  obtain ⟨hlow, hpulse⟩ := frameWith_bl _ (maskBl_mem hm) _ (maskEn_mem hm) hm.2.2.1 bl n rs
  rcases mem_nibbleXfer h with rfl | rfl
  · exact hlow
  · exact hpulse

theorem carriesBl_byteXfer (v : Byte) (rs : Bool) : CarriesBl q bl (byteXfer q bl v rs) :=
  (carriesBl_nibbleXfer hm bl _ rs).append (carriesBl_nibbleXfer hm bl _ rs)

theorem carriesBl_sendHd (r : EncResult) : CarriesBl q bl (sendHd q bl r) := by
  cases r with
  | ok b => exact carriesBl_byteXfer hm bl b false
  | err e => exact .nil

theorem carriesBl_dataXfers (p : List Byte) : CarriesBl q bl (dataXfers q bl p) := by
  induction p with
  | nil => exact .nil
  | cons b p ih => exact (carriesBl_byteXfer hm bl b true).append ih

theorem carriesBl_clearSeq : CarriesBl q bl (clearSeq q bl) :=
  (((carriesBl_sendHd hm bl _).append .wait).append (carriesBl_sendHd hm bl _)).append .wait

theorem carriesBl_charInitSeq (flags : BitVec 3) : CarriesBl q bl (charInitSeq q bl flags) := by
  have hw {k t} : CarriesBl q bl [.wait k t] := .wait
  have hn := fun n => carriesBl_nibbleXfer hm bl n false
  have hs := carriesBl_sendHd hm bl
  exact ((((((((((hw.append (hn _)).append hw).append (hn _)).append hw).append (hn _)).append hw).append (hn _)).append hw).append
    (hs _)).append (hs _)).append (hs _)

end

theorem carriesBl_backlightXfer (q : Params) (bl : Bool) : CarriesBl q bl (backlightXfer q bl) := by
  intro a f h
  cases List.mem_singleton.mp h
  cases bl
  · exact BitVec.zero_and
  · exact BitVec.and_self

/-- The traffic of a character-family instruction shows BACKLIGHT as the instruction leaves it. -/
theorem carriesBl_trafficOf {i : Instr} {s : State} (hm : s.params.masksWf) (hi : i.onlyFamily = some .char) :
    CarriesBl s.params (writesOf i s).backlight (trafficOf i s) := by
  have hsend := carriesBl_sendHd hm s.backlight
  have hdata := carriesBl_dataXfers hm s.backlight
  have hnibble := carriesBl_nibbleXfer hm s.backlight
  have hbyte := carriesBl_byteXfer hm s.backlight
  cases i with
  | clear => exact carriesBl_clearSeq hm _
  | home => exact (hsend _).append .wait
  | setPos =>
    simp only [trafficOf]
    split
    · exact hsend _
    · exact .nil
  | writeTextAtLine =>
    simp only [trafficOf]
    split
    · exact (hsend _).append (hdata _)
    · exact .nil
  | writeText => exact hdata _
  | setBacklight => exact carriesBl_backlightXfer _ _
  | setGlyph | setAllGlyphs => exact (hsend _).append (hdata _)
  | getGlyph | getAllGlyphs => exact .nil
  | writeCommandChar | writeDataChar => exact hbyte _ _
  | nibIfaceReset | nibIface4bit => exact hnibble _ _
  | setCursorStyle | setDisplayOnChar | cmdEntryMode | cmdFunctionSet | cmdSetCgram | cmdSetDdram | hdClear | hdHome | hdEntryMode
  | hdDisplayControl | hdFunctionSet | hdSetCgramAddr | hdSetDdramAddr =>
    simp only [trafficOf]
    exact hsend _
  | init | teardown | readReg | setDisplayOnGraphic | writeCommandGraphic | writeDataGraphic | writeDataStream | setContrast
  | setAllPixelsOn | setInverse | oledSetContrast | oledAllOn | oledInverse | oledDisplay => cases hi

/-- So does INIT's, before and after READY. -/
theorem carriesBl_init {w : State} (hm : w.params.masksWf) (hf : w.family = .char) :
    CarriesBl w.params w.backlight (initBefore w) ∧ CarriesBl w.params w.backlight (initAfter w) := by
  simp only [initBefore, initAfter, hf]
  exact ⟨carriesBl_charInitSeq hm _ _, carriesBl_clearSeq hm _⟩

theorem InitBegun.family {i : Instr} {s w : State} (h : InitBegun i s w) : w.family = s.family := congrArg Params.family h.params

theorem InitBegun.trace {i : Instr} {s w : State} (h : InitBegun i s w) : w.trace = s.trace := by
  obtain ⟨v, bl, on, r, c, p, g, -, -, rfl⟩ := h.isInit
  rfl

/-- INIT's traffic shows the BACKLIGHT it wrote. -/
theorem InitBegun.carriesBl {i : Instr} {s w : State} (h : InitBegun i s w) (hm : s.params.masksWf) (hf : s.family = .char) :
    CarriesBl s.params w.backlight (initBefore w) ∧ CarriesBl s.params w.backlight (initAfter w) :=
  h.params ▸ carriesBl_init (h.params ▸ hm) (h.family.trans hf)

theorem writesOf_command {i : Instr} (h : i.isRequest = false) (s : State) : writesOf i s = s := (writesNothing_of_command h).2.2 s

theorem carriesBl_command {i : Instr} {s : State} (hm : s.params.masksWf) (hc : i.isRequest = false) (hi : i.onlyFamily = some .char) :
    CarriesBl s.params s.backlight (trafficOf i s) := by
  have h := carriesBl_trafficOf hm hi
  rwa [writesOf_command hc] at h

/-- What an instruction adds to the trace of a character-family block shows one backlight bit. -/
theorem Next.carriesBl {i : Instr} {s t : State} (h : Next i s t) (hm : s.params.masksWf) (hf : s.family = .char) :
    ∃ evs, t.trace = s.trace ++ evs ∧ CarriesBl s.params t.backlight evs := by
  cases h with
  | rejected | readRegRejected | readReg | glyph | allGlyphs | teardownAgain => exact ⟨[], (List.append_nil _).symm, .nil⟩
  | teardown => exact ⟨[.release], rfl, .release⟩
  | sent _ _ hi => exact ⟨_, congrArg (· ++ _) (writesOf_trace i s), carriesBl_trafficOf hm (hf ▸ hi)⟩
  | cut _ _ hi _ k => exact ⟨_, congrArg (· ++ _) (writesOf_trace i s), (carriesBl_trafficOf hm (hf ▸ hi)).cut k⟩
  | commandSent hc _ hi => exact ⟨_, rfl, carriesBl_command hm hc (hf ▸ hi)⟩
  | commandCut hc _ hi k => exact ⟨_, rfl, (carriesBl_command hm hc (hf ▸ hi)).cut k⟩
  | initDone w hw =>
    obtain ⟨hbefore, hafter⟩ := hw.carriesBl hm hf
    exact ⟨initBefore w ++ initAfter w, by simp [hw.trace], hbefore.append hafter⟩
  | initCutBefore w hw k =>
    exact ⟨cutAfterBus k (initBefore w), by simp [hw.trace], (hw.carriesBl hm hf).1.cut k⟩
  | initCutAfter w hw k =>
    obtain ⟨hbefore, hafter⟩ := hw.carriesBl hm hf
    exact ⟨initBefore w ++ cutAfterBus k (initAfter w), by simp [hw.trace], hbefore.append (hafter.cut k)⟩

/-- Settles O29: every frame of a transfer is built from the same RS and BL, and every transfer of an instruction from one BACKLIGHT. -/
theorem noGlitchOnRsOrBacklight : Obligations.NoGlitchOnRsOrBacklight := by
  refine ⟨fun q bl rs v a f hm hmem => ⟨?_, carriesBl_byteXfer hm bl v rs a f hmem⟩, fun i s t hm hf h => ?_⟩
  · obtain ⟨n, hn⟩ := mem_byteXfer hmem
    obtain ⟨hlow, hpulse⟩ := frameWith_rs _ (maskBl_mem hm) _ (maskEn_mem hm) bl n rs
    rcases hn with rfl | rfl
    · exact hlow
    · exact hpulse
  · exact (exec_next i s t h).carriesBl hm hf

end Sys2Proof.Machine

/-! Completions: what each request and each bare command leaves when its checks pass and the environment lets its traffic through. -/

namespace Sys2Proof.Machine

-- the checks of a READY-only request (60_exceptions.md R302)

theorem firstFailure_eq_none_iff {i : Instr} {s : State} : firstFailure i s = none ↔ ∀ c ∈ orderedChecks i s, c.1 = true := by
  simp [firstFailure, List.find?_eq_none]

/-- The checks of a request of one family, as one conjunction. -/
theorem firstFailure_ready_iff {i : Instr} {s : State} {f : Family} (hfam : i.onlyFamily = some f) :
    firstFailure i s = none ↔ s.lifecycle = .ready ∧ s.family = f ∧ i.reservedZero = true ∧ i.operandsLegal s.params = true ∧
      positionLegal s i = true ∧ i.lengthLegal s.params = true := by
  obtain ⟨hinit, hteardown, hread⟩ := not_lifecycleRequest_of_onlyFamily hfam
  have hadmits : familyAdmits i s.family = true ↔ s.family = f := by
    simpa [familyAdmits, hfam] using eq_comm
  rw [firstFailure_eq_none_iff]
  simp only [orderedChecks, List.forall_mem_cons, hinit, hteardown, hread, hadmits]
  cases s.lifecycle <;> simp [and_assoc]

/-- A request whose checks pass and whose transactions and waits the environment lets through answers OK. -/
theorem exec_completes {i : Instr} {s : State} {evs : List Event} {nBus nWait : Nat} (hs : sends i = true)
    (hpass : firstFailure i s = none) (hrow : rowFound i s = true) (hevs : trafficOf i s = evs) (hb : busCount evs = nBus)
    (hw : waitCount evs = nWait) (hacks : s.env.acksBus nBus) (hserves : s.env.servesWaits nWait) :
    exec i s = .next (answered (writesOf i s) evs nBus nWait []) := by
  subst hevs hb hw
  rw [exec_sends_done i s hs hrow ((firstError_checksOf s (isRequest_of_sends hs)).trans hpass) hacks hserves]
  simp only [respond, State.sent, answered, writesOf_env, writesOf_trace, Status.code]

/-- A sending request that names no position, in READY. -/
theorem exec_ready_completes {i : Instr} {s : State} {f : Family} {evs : List Event} {nBus nWait : Nat} (hs : sends i = true)
    (hfam : i.onlyFamily = some f) (hf : s.family = f) (hl : s.lifecycle = .ready) (hwell : i.wellFormed s.params = true)
    (hpos : positionLegal s i = true) (hrow : rowFound i s = true) (hevs : trafficOf i s = evs) (hb : busCount evs = nBus)
    (hw : waitCount evs = nWait) (hacks : s.env.acksBus nBus) (hserves : s.env.servesWaits nWait) :
    exec i s = .next (answered (writesOf i s) evs nBus nWait []) := by
  simp only [Instr.wellFormed, Bool.and_eq_true] at hwell
  obtain ⟨⟨hz, ho⟩, hlen⟩ := hwell
  exact exec_completes hs ((firstFailure_ready_iff hfam).mpr ⟨hl, hf, hz, ho, hpos, hlen⟩) hrow hevs hb hw hacks hserves

-- CLEAR and HOME (45_high_level_ops.md R250, R251)

/-- Settles O37: the traffic of each is its byte transfers and settle waits. -/
theorem clearAndHomeComplete : Obligations.ClearAndHomeComplete :=
  fun _ hf hl => ⟨fun hacks hserves => exec_ready_completes (i := .clear 0 0 0 []) rfl rfl hf hl rfl rfl rfl rfl rfl rfl hacks hserves,
    fun hacks hserves => exec_ready_completes (i := .home 0 0 0 []) rfl rfl hf hl rfl rfl rfl rfl rfl rfl hacks hserves⟩

-- positions (R252, 10_state.md R41)

theorem lineOffset_eq (s : State) (y : Byte) :
    lineOffset s y = [s.lineOffset0, s.lineOffset1, s.lineOffset2, s.lineOffset3][y.toNat]? := by
  unfold lineOffset
  split
  case h_5 =>
    refine (List.getElem?_eq_none ?_).symm
    simp only [imp_false, List.length_cons, List.length_nil] at *
    omega
  all_goals
    rename_i h
    rw [h]
    rfl

theorem ddramAddr_eq {s : State} {x y : Byte} {base : BitVec 7}
    (h : [s.lineOffset0, s.lineOffset1, s.lineOffset2, s.lineOffset3][y.toNat]? = some base) :
    ddramAddr s x y = some (base + x.setWidth 7) := by
  rw [ddramAddr, lineOffset_eq, h]
  rfl

/-- A 7-bit address is always in the range of EncSetDDRAM (41_command_encoder.md R147). -/
theorem encSetDdram_setWidth (a : BitVec 7) : encSetDdram (a.setWidth 8) = .ok (0x80 ||| a.setWidth 8) := by revert a; decide

theorem encSetCgram_setWidth (a : BitVec 6) : encSetCgram (a.setWidth 8) = .ok (0x40 ||| a.setWidth 8) := by revert a; decide

/-- Settles O38: a valid position has an address; an invalid one fails the operand check. -/
theorem setPosSendsTheDdramAddress : Obligations.SetPosSendsTheDdramAddress := by
  intro s x y hf hl
  refine ⟨fun base hx hy hbase hacks hserves => ?_, fun hpos => ?_⟩
  · have haddr := ddramAddr_eq (x := x) hbase
    refine exec_ready_completes (i := .setPos x y 0 []) rfl rfl hf hl rfl ?_ ?_ ?_ rfl rfl hacks hserves
    · simp [positionLegal, hx, hy]
    · exact Option.isSome_iff_exists.mpr ⟨_, haddr⟩
    · simp only [trafficOf, haddr, encSetDdram_setWidth]; rfl
  · refine exec_illegalOperand_readyChar (i := .setPos x y 0 []) hf hl rfl rfl rfl rfl ?_
    simpa [Instr.operandsLegal, positionLegal] using hpos

-- text (R254, R255)

/-- Settles O40: text is the data transfers of its bytes, after the address of (0, row) if a row is named. -/
theorem textCompletes : Obligations.TextCompletes := by
  intro s p hf hl hp
  refine ⟨fun hacks hserves => ?_, fun row base hw hrow hbase hacks hserves => ?_⟩
  · refine exec_ready_completes (i := .writeText 0 0 0 p) rfl rfl hf hl ?_ rfl rfl rfl (busCount_dataXfers ..)
      (waitCount_dataXfers ..) hacks hserves
    simpa [Instr.wellFormed, Instr.reservedZero, Instr.operandsLegal, Instr.lengthLegal] using hp
  · have haddr : ddramAddr s 0 row = some base := (ddramAddr_eq hbase).trans (congrArg some (BitVec.add_zero base))
    refine exec_ready_completes (i := .writeTextAtLine row 0 0 p)
      (evs := byteXfer s.params s.backlight (0x80 ||| base.setWidth 8) false ++ dataXfers s.params s.backlight p)
      rfl rfl hf hl ?_ ?_ ?_ ?_ ?_ ?_ hacks hserves
    · simpa [Instr.wellFormed, Instr.reservedZero, Instr.operandsLegal, Instr.lengthLegal] using hp
    · simp [positionLegal, hw, hrow]
    · exact Option.isSome_iff_exists.mpr ⟨_, haddr⟩
    · simp only [trafficOf, haddr, encSetDdram_setWidth]; rfl
    · rw [busCount_append, busCount_byteXfer, busCount_dataXfers]; omega
    · rw [waitCount_append, waitCount_byteXfer, waitCount_dataXfers]; omega

-- the display flags (R256, R257)

theorem sendHd_displayControl (q : Params) (bl : Bool) (s : State) :
    sendHd q bl (encDisplayControl (flagsByte s)) =
      byteXfer q bl (BitVec.ofNat 8 (0x08 + 4 * s.displayOn.toNat + 2 * s.cursorOn.toNat + s.blinkOn.toNat)) false := by
  rw [encDisplayControl_eq, flagsByteOfTheFlags, ← Nat.add_assoc, ← Nat.add_assoc]
  rfl

/-- Settles O42: the byte is that of the flags as written. -/
theorem displayFlagRequestsComplete : Obligations.DisplayFlagRequestsComplete := by
  intro s x y hf hl hacks hserves
  exact ⟨exec_ready_completes (i := .setCursorStyle x y 0 0 0 []) rfl rfl hf hl rfl rfl rfl
      (sendHd_displayControl _ _ (s.setCursor x y)) rfl rfl hacks hserves,
    exec_ready_completes (i := .setDisplayOnChar x 0 0 0 []) rfl rfl hf hl rfl rfl rfl
      (sendHd_displayControl _ _ (s.setDisplay x)) rfl rfl hacks hserves⟩

-- the glyph store (R260 to R263)

/-- The slot of an index starts at eight times the index, without wrapping. -/
theorem encSetCgram_slot {index : Byte} (h : index.toNat ≤ 7) :
    encSetCgram (8 * index) = .ok (BitVec.ofNat 8 (0x40 + 8 * index.toNat)) := by
  have hmul : (8 * index).toNat = 8 * index.toNat := by bv_omega
  rw [encSetCgram_of_le (by omega), hmul]

theorem busCount_glyphs (q : Params) (bl : Bool) (v : Byte) (p : List Byte) :
    busCount (byteXfer q bl v false ++ dataXfers q bl p) = 6 + 6 * p.length := by
  rw [busCount_append, busCount_byteXfer, busCount_dataXfers]

theorem waitCount_glyphs (q : Params) (bl : Bool) (v : Byte) (p : List Byte) :
    waitCount (byteXfer q bl v false ++ dataXfers q bl p) = 4 + 4 * p.length := by
  rw [waitCount_append, waitCount_byteXfer, waitCount_dataXfers]

/-- Written bytes read back, and the others read as before. -/
theorem Memory.read_writeN (m : Memory) (a n : Nat) (p : List Byte) (hp : p.length = n) :
    (∀ k, k < n → (m.writeN a p).read (a + k) = p[k]?) ∧ (∀ b, b < a ∨ a + n ≤ b → (m.writeN a p).read b = m.read b) := by
  subst hp
  exact ⟨fun k hk => (Memory.read_writeN_inside m a k p hk).trans (List.getElem?_eq_getElem hk).symm,
    fun b hb => Memory.read_writeN_outside m a b p hb⟩

/-- Settles O45: the store is written at the slot, and the CGRAM address of the slot and the bytes are sent. -/
theorem setGlyphCompletes : Obligations.SetGlyphCompletes := by
  intro s index p hf hl hk hp hacks hserves
  refine ⟨s.store.writeN (8 * index.toNat) p, ?_, Memory.read_writeN _ _ 8 p hp⟩
  refine exec_ready_completes (i := .setGlyph index 0 0 p)
    (evs := byteXfer s.params s.backlight (BitVec.ofNat 8 (0x40 + 8 * index.toNat)) false ++ dataXfers s.params s.backlight p)
    rfl rfl hf hl ?_ rfl rfl ?_ ?_ ?_ hacks hserves
  · simpa [Instr.wellFormed, Instr.reservedZero, Instr.operandsLegal, Instr.lengthLegal, hp, BitVec.le_def] using hk
  · simp only [trafficOf, encSetCgram_slot hk]; rfl
  · rw [busCount_glyphs, hp]
  · rw [waitCount_glyphs, hp]

/-- Settles O46: the same with the whole store as the slot. -/
theorem setAllGlyphsCompletes : Obligations.SetAllGlyphsCompletes := by
  intro s p hf hl hp hacks hserves
  obtain ⟨hinside, houtside⟩ := Memory.read_writeN s.store 0 64 p hp
  refine ⟨s.store.writeN 0 p, ?_, fun k hk => by simpa using hinside k hk, fun a ha => houtside a (.inr (by omega))⟩
  refine exec_ready_completes (i := .setAllGlyphs 0 0 0 p)
    (evs := byteXfer s.params s.backlight 0x40 false ++ dataXfers s.params s.backlight p)
    rfl rfl hf hl ?_ rfl rfl rfl ?_ ?_ hacks hserves
  · simp [Instr.wellFormed, Instr.reservedZero, Instr.operandsLegal, Instr.lengthLegal, hp]
  · rw [busCount_glyphs, hp]
  · rw [waitCount_glyphs, hp]

/-- A store in canonical form gives the bytes of every slot. -/
theorem respondStore_completes {s : State} (hwf : s.store.wf) {a n : Nat} (h : a + n ≤ 64) :
    ∃ bytes, bytes.length = n ∧ (∀ k, k < n → s.store.read (a + k) = bytes[k]?) ∧
      respondStore a n s = .next (respond .ok bytes s) := by
  obtain ⟨bytes, hread, hlen⟩ := Memory.wf_readN s.store hwf a n h
  exact ⟨bytes, hlen, Memory.readN_read _ _ _ _ hread, respondStore_eq _ _ _ _ hread⟩

/-- Settles O47: the checks pass, and the body reads a slot or the whole of a canonical store. -/
theorem glyphReadersComplete : Obligations.GlyphReadersComplete := by
  intro s hf hl hwf
  refine ⟨fun index hk => ?_, ?_⟩
  · obtain ⟨bytes, hlen, hread, hresp⟩ := respondStore_completes hwf (a := 8 * index.toNat) (n := 8) (by omega)
    have ho : (Instr.getGlyph index 0 0 []).operandsLegal s.params = true := by
      simpa [Instr.operandsLegal, BitVec.le_def] using hk
    have hpass : firstFailure (.getGlyph index 0 0 []) s = none :=
      (firstFailure_ready_iff rfl).mpr ⟨hl, hf, rfl, ho, rfl, rfl⟩
    exact ⟨bytes, hlen, hread, (exec_eq_bodyOf rfl hpass).trans hresp⟩
  · obtain ⟨bytes, hlen, hread, hresp⟩ := respondStore_completes hwf (a := 0) (n := 64) (by omega)
    have hpass : firstFailure (.getAllGlyphs 0 0 0 []) s = none :=
      (firstFailure_ready_iff rfl).mpr ⟨hl, hf, rfl, rfl, rfl, rfl⟩
    exact ⟨bytes, hlen, fun k hk => by simpa using hread k hk, (exec_eq_bodyOf rfl hpass).trans hresp⟩

-- the raw encoder requests (41_command_encoder.md R149 to R152)

/-- Settles O48: each sends the byte of its encoder function. -/
theorem encoderRequestsComplete : Obligations.EncoderRequestsComplete := by
  intro s x y off hf hl hacks hserves
  refine ⟨?_, ?_, fun ho => ?_, fun ho => ?_⟩
  · exact exec_ready_completes (i := .cmdEntryMode x y 0 0 0 []) rfl rfl hf hl rfl rfl rfl
      (congrArg (sendHd _ _) (encEntryMode_eq x y)) rfl rfl hacks hserves
  · exact exec_ready_completes (i := .cmdFunctionSet false x y 0 0 0 []) rfl rfl hf hl rfl rfl rfl
      (congrArg (sendHd _ _) (encFunctionSet_fourBit x y)) rfl rfl hacks hserves
  · refine exec_ready_completes (i := .cmdSetCgram off 0 0 []) rfl rfl hf hl ?_ rfl rfl
      (congrArg (sendHd _ _) (encSetCgram_of_le ho)) rfl rfl hacks hserves
    simpa [Instr.wellFormed, Instr.reservedZero, Instr.operandsLegal, Instr.lengthLegal, BitVec.le_def] using ho
  · refine exec_ready_completes (i := .cmdSetDdram off 0 0 []) rfl rfl hf hl ?_ rfl rfl
      (congrArg (sendHd _ _) (encSetDdram_of_le ho)) rfl rfl hacks hserves
    simpa [Instr.wellFormed, Instr.reservedZero, Instr.operandsLegal, Instr.lengthLegal, BitVec.le_def] using ho

-- raw bytes (42_nibble_strobe.md R175, R176; 43_framed_byte.md R194 to R196)

/-- Settles O49: the byte is sent as it is, with RS by the request. -/
theorem rawBytesCharComplete : Obligations.RawBytesCharComplete :=
  fun _ v hf hl hacks hserves =>
    ⟨exec_ready_completes (i := .writeCommandChar v 0 0 []) rfl rfl hf hl rfl rfl rfl rfl rfl rfl hacks hserves,
      exec_ready_completes (i := .writeDataChar v 0 0 []) rfl rfl hf hl rfl rfl rfl rfl rfl rfl hacks hserves⟩

/-- The last check of R302 is the only one that fails: the length. -/
theorem exec_badLength {i : Instr} {s : State} {f : Family} (hi : i.isRequest = true) (hfam : i.onlyFamily = some f) (hf : s.family = f)
    (hl : s.lifecycle = .ready) (hz : i.reservedZero = true) (ho : (i.operandsLegal s.params && positionLegal s i) = true)
    (hlen : i.lengthLegal s.params = false) : exec i s = .next (raise .badLength s) := by
  refine exec_raises hi hfam ?_
  obtain ⟨hinit, hteardown, hread⟩ := not_lifecycleRequest_of_onlyFamily hfam
  have hadmits : familyAdmits i s.family = true := by simp [familyAdmits, hfam, hf]
  simp only [firstFailure, orderedChecks, firstFailing_cons, hinit, hteardown, hread, hadmits, hl, hz, ho, hlen]
  rfl

/-- Settles O50: each request is its framed transactions, and a stream is checked for its length. -/
theorem rawBytesGraphicComplete : Obligations.RawBytesGraphicComplete := by
  intro s v p hf hl
  refine ⟨fun hacks => ⟨?_, ?_⟩, fun hacks h1 hmax => ?_, fun hlen => ?_⟩
  · exact exec_ready_completes (i := .writeCommandGraphic v 0 0 []) rfl rfl hf hl rfl rfl rfl rfl rfl rfl hacks (Nat.zero_le _)
  · exact exec_ready_completes (i := .writeDataGraphic v 0 0 []) rfl rfl hf hl rfl rfl rfl rfl rfl rfl hacks (Nat.zero_le _)
  · refine exec_ready_completes (i := .writeDataStream 0 0 0 p) rfl rfl hf hl ?_ rfl rfl rfl rfl rfl hacks (Nat.zero_le _)
    simp [Instr.wellFormed, Instr.reservedZero, Instr.operandsLegal, Instr.lengthLegal, h1, hmax]
  · refine exec_badLength (i := .writeDataStream 0 0 0 p) rfl rfl hf hl rfl rfl ?_
    simp only [Instr.lengthLegal, Bool.and_eq_false_iff, decide_eq_false_iff_not]
    omega

-- the graphic settings (43_framed_byte.md R197 to R200)

theorem sendOled_ok {q : Params} {r : EncResult} {c : Byte} (h : r = .ok c) : sendOled q r = [.bus q.busAddr [q.ctrlCmd, c]] := by
  rw [h]
  rfl

/-- Settles O51: contrast is two framed commands, the others one. -/
theorem graphicSettingsComplete : Obligations.GraphicSettingsComplete := by
  intro s v on hf hl
  refine ⟨fun hacks => ?_, fun hacks => ⟨?_, ?_, ?_⟩⟩
  · exact exec_ready_completes (i := .setContrast v 0 0 []) rfl rfl hf hl rfl rfl rfl rfl rfl rfl hacks (Nat.zero_le _)
  · exact exec_ready_completes (i := .setAllPixelsOn on 0 0 0 []) rfl rfl hf hl rfl rfl rfl (sendOled_ok (encAllOn_eq on)) rfl rfl hacks
      (Nat.zero_le _)
  · exact exec_ready_completes (i := .setInverse on 0 0 0 []) rfl rfl hf hl rfl rfl rfl (sendOled_ok (encInverse_eq on)) rfl rfl hacks
      (Nat.zero_le _)
  · exact exec_ready_completes (i := .setDisplayOnGraphic on 0 0 0 []) rfl rfl hf hl rfl rfl rfl (sendOled_ok (encDisplay_eq on)) rfl
      rfl hacks (Nat.zero_le _)

-- READ_REG (44_lifecycle.md R229, 10_state.md R45)

/-- READ_REG of a number of the map passes its checks in every state. -/
theorem exec_readReg_completes {s : State} {n v : Byte} (hn : validReg n = true) (hv : regValue s n = some v) :
    exec (.readReg n 0 0 []) s = .next (respondReadReg .ok [v] s) := by
  have hpass : firstFailure (.readReg n 0 0 []) s = none := by
    rw [firstFailure_eq_none_iff]
    simp [orderedChecks, familyAdmits, positionLegal, Instr.isInit, Instr.isTeardown, Instr.isReadReg, Instr.onlyFamily,
      Instr.reservedZero, Instr.operandsLegal, Instr.lengthLegal, hn]
  rw [exec_eq_bodyOf rfl hpass]
  simp only [bodyOf, hv]

/-- The numbers 0x40 to 0x7F read the store. -/
theorem regValue_store (s : State) {n : Byte} (h : 0x40 ≤ n.toNat) (h' : n.toNat ≤ 0x7F) :
    regValue s n = s.store.read (n.toNat - 0x40) := by
  unfold regValue
  split
  case h_11 => exact if_pos ⟨h, h'⟩
  all_goals omega

/-- Settles O36: the register number is in the map, and the value is that of the map. -/
theorem readRegCompletes : Obligations.ReadRegCompletes := by
  intro s
  refine ⟨⟨_, exec_readReg_completes rfl rfl, ?_⟩, ⟨_, exec_readReg_completes rfl rfl, ?_⟩, exec_readReg_completes rfl rfl,
    exec_readReg_completes rfl rfl, exec_readReg_completes rfl rfl, exec_readReg_completes rfl rfl, exec_readReg_completes rfl rfl,
    exec_readReg_completes rfl rfl, exec_readReg_completes rfl rfl, exec_readReg_completes rfl rfl, fun hwf n h h' => ?_⟩
  · unfold statusRegister
    cases s.lifecycle <;> cases s.busDesync <;> cases s.family <;> rfl
  · unfold flagsRegister
    cases s.blinkOn <;> cases s.cursorOn <;> cases s.displayOn <;> cases s.backlight <;> rfl
  · obtain ⟨v, hv⟩ := Option.isSome_iff_exists.mp ((Memory.wf_read s.store hwf (n.toNat - 0x40)).mpr (by omega))
    refine ⟨v, hv, exec_readReg_completes ?_ ((regValue_store s h h').trans hv)⟩
    simp [validReg, BitVec.le_def, h, h']

-- the bare controller commands (log entry 7)

theorem exec_command_eq {i : Instr} {s : State} {f : Family} (hi : i.isRequest = false) (hfam : i.onlyFamily = some f) :
    exec i s = controllerCommand f (if i.operandsLegal s.params then none else some .unsupportedConfig) (trafficOf i s) s := by
  obtain ⟨f', hfam', h⟩ := exec_command i s hi
  cases hfam.symm.trans hfam'
  exact h

/-- A command of the block's family with legal operands sends its traffic. -/
theorem exec_command_completes {i : Instr} {s : State} {f : Family} {evs : List Event} {nBus nWait : Nat} (hi : i.isRequest = false)
    (hfam : i.onlyFamily = some f) (hf : s.family = f) (hl : s.lifecycle ≠ .released) (ho : i.operandsLegal s.params = true)
    (hevs : trafficOf i s = evs) (hb : busCount evs = nBus) (hw : waitCount evs = nWait) (hacks : s.env.acksBus nBus)
    (hserves : s.env.servesWaits nWait) :
    exec i s = .next { s with trace := s.trace ++ evs, env := s.env.after nBus nWait } := by
  subst hevs hb hw
  rw [exec_command_eq hi hfam, if_pos ho]
  exact controllerCommand_done f _ s hl hf ⟨hacks, hserves⟩

theorem exec_command_otherFamily {i : Instr} {s : State} {f : Family} (hi : i.isRequest = false) (hfam : i.onlyFamily = some f)
    (hl : s.lifecycle ≠ .released) (hf : s.family ≠ f) : exec i s = .next (raise .unsupportedOp s) :=
  (exec_command_eq hi hfam).trans ((if_neg hl).trans (if_pos hf))

/-- A character-family command whose encoder gives the byte `v`. -/
theorem exec_hdCommand_completes {i : Instr} {s : State} {r : EncResult} {v : Nat} (hi : i.isRequest = false)
    (hfam : i.onlyFamily = some .char) (hf : s.family = .char) (hl : s.lifecycle ≠ .released) (ho : i.operandsLegal s.params = true)
    (hevs : trafficOf i s = sendHd s.params s.backlight r) (hr : r = .ok (BitVec.ofNat 8 v)) (hacks : s.env.acksBus 6)
    (hserves : s.env.servesWaits 4) :
    exec i s = .next { s with trace := s.trace ++ byteXfer s.params s.backlight (BitVec.ofNat 8 v) false, env := s.env.after 6 4 } :=
  exec_command_completes hi hfam hf hl ho (hevs.trans (congrArg _ hr)) rfl rfl hacks hserves

/-- Settles O52: each row sends the byte of its encoder function, or its nibble. -/
theorem hdCommandsComplete : Obligations.HdCommandsComplete := by
  intro s x y z r2 a6 a7 hf hl
  refine ⟨fun hacks hserves => ?_, ?_, fun hacks hserves => ⟨?_, ?_⟩, fun i hi hfam => ?_⟩
  · have ha6 : (a6.setWidth 8).toNat = a6.toNat := BitVec.toNat_setWidth_of_le (by decide)
    have ha7 : (a7.setWidth 8).toNat = a7.toNat := BitVec.toNat_setWidth_of_le (by decide)
    have hcontrol := encDisplayControl_eq ((bit3 x <<< 2) ||| (bit3 y <<< 1) ||| bit3 z)
    rw [displayFlags_toNat, ← Nat.add_assoc, ← Nat.add_assoc] at hcontrol
    have hcgram := encSetCgram_of_le (off := a6.setWidth 8) (by omega)
    rw [ha6] at hcgram
    have hddram := encSetDdram_of_le (off := a7.setWidth 8) (by omega)
    rw [ha7] at hddram
    have hsends {i : Instr} {r : EncResult} {v : Nat} hi hfam ho hevs hr :=
      exec_hdCommand_completes (i := i) (r := r) (v := v) hi hfam hf hl ho hevs hr hacks hserves
    exact ⟨hsends rfl rfl rfl rfl rfl, hsends rfl rfl rfl rfl rfl, hsends rfl rfl rfl rfl (encEntryMode_eq x y),
      hsends rfl rfl rfl rfl hcontrol, hsends rfl rfl rfl rfl (encFunctionSet_fourBit x y), hsends rfl rfl rfl rfl hcgram,
      hsends rfl rfl rfl rfl hddram⟩
  · exact (exec_command_eq (i := .hdFunctionSet true x y r2) rfl rfl).trans ((if_neg hl).trans (if_neg (not_not.mpr hf)))
  · exact exec_command_completes rfl rfl hf hl rfl rfl rfl rfl hacks hserves
  · exact exec_command_completes rfl rfl hf hl rfl rfl rfl rfl hacks hserves
  · exact exec_command_otherFamily hi hfam hl (hf ▸ nofun)

/-- Settles O53: each row sends its framed commands. -/
theorem oledCommandsComplete : Obligations.OledCommandsComplete := by
  intro s v b hf hl
  refine ⟨fun hacks => ?_, fun hacks => ⟨?_, ?_, ?_⟩, fun i hi hfam => ?_⟩
  · exact exec_command_completes (i := .oledSetContrast v) rfl rfl hf hl rfl rfl rfl rfl hacks (Nat.zero_le _)
  · exact exec_command_completes (i := .oledAllOn b) rfl rfl hf hl rfl (sendOled_ok (encAllOn_eq b)) rfl rfl hacks (Nat.zero_le _)
  · exact exec_command_completes (i := .oledInverse b) rfl rfl hf hl rfl (sendOled_ok (encInverse_eq b)) rfl rfl hacks (Nat.zero_le _)
  · exact exec_command_completes (i := .oledDisplay b) rfl rfl hf hl rfl (sendOled_ok (encDisplay_eq b)) rfl rfl hacks (Nat.zero_le _)
  · exact exec_command_otherFamily hi hfam hl (hf ▸ nofun)

end Sys2Proof.Machine

/-! Traffic that is cut or stuck (60_exceptions.md R308, R309). -/

namespace Sys2Proof.Machine

-- the instructions whose whole effect is their writes and their traffic

/-- What an instruction does when all of its traffic was sent: a request answers OK, a bare command answers nothing. -/
def onSent (i : Instr) (t : State) : State := if i.isRequest then respond .ok [] t else t

/-- The checks let `i` send its traffic in `s`. -/
def Passes (i : Instr) (s : State) : Prop :=
  (sends i = true ∧ firstFailure i s = none ∧ rowFound i s = true) ∨
  (i.isRequest = false ∧ s.lifecycle ≠ .released ∧ i.onlyFamily = some s.family ∧ i.operandsLegal s.params = true)

theorem bodyOf_sends {i : Instr} (hs : sends i = true) (s : State) :
    bodyOf i s = if rowFound i s then sendAndRespond (trafficOf i s) (writesOf i s) else .fault .rowMissing := by
  cases i with
  | init | teardown | readReg | getGlyph | getAllGlyphs => cases hs
  | _ => rfl

theorem Passes.exec_eq {i : Instr} {s : State} (h : Passes i s) :
    exec i s = traffic raiseTransport (trafficOf i s) (writesOf i s) fun t => .next (onSent i t) := by
  rcases h with ⟨hs, hpass, hrow⟩ | ⟨hi, hl, hf, ho⟩
  · have hi := isRequest_of_sends hs
    rw [exec_eq_bodyOf hi hpass, bodyOf_sends hs, if_pos hrow]
    simp only [onSent, hi, if_true]
    rfl
  · rw [exec_command_eq hi hf, if_pos ho, writesOf_command hi]
    simp only [onSent, hi]
    exact (if_neg hl).trans (if_neg (not_not.mpr rfl))

/-- The checks and the traffic do not look at the environment, and the writes leave it. -/
theorem trafficOf_setEnv (i : Instr) (s : State) (e : Env) : trafficOf i { s with env := e } = trafficOf i s := by
  cases i <;> rfl

theorem writesOf_setEnv (i : Instr) (s : State) (e : Env) : writesOf i { s with env := e } = { writesOf i s with env := e } := by
  cases i <;> rfl

theorem firstFailure_setEnv (i : Instr) (s : State) (e : Env) : firstFailure i { s with env := e } = firstFailure i s := by
  cases i <;> rfl

theorem Passes.of_setEnv {i : Instr} {s : State} {e : Env} (h : Passes i { s with env := e }) (e' : Env) :
    Passes i { s with env := e' } := by
  rw [Passes, firstFailure_setEnv] at h ⊢
  have hrow : rowFound i { s with env := e' } = rowFound i { s with env := e } := by cases i <;> rfl
  rw [hrow]
  exact h

/-- A next state in which nothing was sent. -/
def Silent (s u : State) : Prop := ∃ evs, u.trace = s.trace ++ evs ∧ busCount evs = 0 ∧ waitCount evs = 0

theorem silent_of_trace_eq {s u : State} (h : u.trace = s.trace) : Silent s u := ⟨[], by rw [h, List.append_nil], rfl, rfl⟩

/-- An instruction other than INIT sends its traffic, or nothing. -/
theorem passes_or_silent {i : Instr} {s u : State} (hi : i.isInit = false) (h : exec i s = .next u) : Passes i s ∨ Silent s u := by
  cases hreq : i.isRequest with
  | true =>
    cases hpass : firstFailure i s with
    | some e =>
      cases (exec_rejected hreq hpass).symm.trans h
      exact .inr (silent_of_trace_eq rfl)
    | none =>
      cases hs : sends i with
      | true =>
        have hbody := (exec_eq_bodyOf hreq hpass).symm.trans h
        rw [bodyOf_sends hs] at hbody
        split at hbody
        · exact .inl (.inl ⟨hs, hpass, ‹_›⟩)
        · cases hbody
      | false =>
        refine .inr ?_
        cases exec_next i s u h with
        | rejected | readRegRejected | readReg | glyph | allGlyphs | teardownAgain => exact silent_of_trace_eq rfl
        | teardown => exact ⟨[.release], rfl, rfl, rfl⟩
        | sent hsends | cut hsends => exact nomatch hs.symm.trans hsends
        | commandSent hcmd | commandCut hcmd => exact nomatch hreq.symm.trans hcmd
        | initDone w hw | initCutBefore w hw | initCutAfter w hw => exact nomatch hi.symm.trans hw.isInit_eq
  | false =>
    obtain ⟨f, hf, hexec⟩ := exec_command i s hreq
    have hu := hexec.symm.trans h
    unfold controllerCommand at hu
    split at hu
    · cases hu; exact .inr (silent_of_trace_eq rfl)
    · split at hu
      · cases hu; exact .inr (silent_of_trace_eq rfl)
      · rename_i hl hfam
        cases ho : i.operandsLegal s.params with
        | true => exact .inl (.inr ⟨hreq, hl, not_not.mp hfam ▸ hf, ho⟩)
        | false =>
          rw [ho] at hu
          cases hu
          exact .inr (silent_of_trace_eq rfl)

-- acknowledged traffic was sent whole

/-- A cut trace ends with a transaction that was not acknowledged. -/
theorem not_acks_cut {evs : List Event} {e : Env} {n k : Nat} {c : Cause} (hk : k < busCount evs) (ha : e.answer (n + k) = .fail c) :
    ¬ e.acksBus (n + busCount (cutAfterBus k evs)) := by
  intro h
  rw [busCount_cutAfterBus k evs hk] at h
  exact nomatch ha.symm.trans (h (n + k) (by omega))

/-- If every transaction a step added was acknowledged, all of its traffic was sent. -/
theorem traffic_acked {onFail : Cause → State → State} (hfail : ∀ c t, (onFail c t).trace = t.trace) {evs evs' : List Event}
    {s u : State} {next : State → Result} (h : traffic onFail evs s next = .next u) (hu : u.trace = s.trace ++ evs')
    (hacks : s.env.acksBus (busCount evs')) : next (s.sent evs) = .next u := by
  rcases traffic_next _ _ _ _ _ h with h | ⟨k, c, hk, -, ha, rfl⟩
  · exact h
  · rw [hfail, State.sent_trace, List.append_cancel_left_eq] at hu
    rw [← hu, ← Nat.zero_add (busCount _)] at hacks
    exact absurd hacks (not_acks_cut hk (by rwa [Nat.zero_add]))

/-- So the state before was one in which the checks pass, `evs` is the traffic, and the state after is what the run leaves. -/
theorem Passes.acked {i : Instr} {s u : State} {evs : List Event} (h : Passes i s) (hexec : exec i s = .next u)
    (hu : u.trace = s.trace ++ evs) (hacks : s.env.acksBus (busCount evs)) :
    evs = trafficOf i s ∧ u = onSent i ((writesOf i s).sent (trafficOf i s)) := by
  have hsent := traffic_acked (fun c t => raiseTransport_trace t c) (h.exec_eq.symm.trans hexec) (by rwa [writesOf_trace]) (by rwa [writesOf_env])
  have hu' : u = onSent i ((writesOf i s).sent (trafficOf i s)) := (Host.Outcome.next.inj hsent).symm
  have htrace : u.trace = s.trace ++ trafficOf i s := by
    rw [hu', onSent]
    split <;> exact congrArg (· ++ _) (writesOf_trace i s)
  exact ⟨List.append_cancel_left (hu.symm.trans htrace), hu'⟩

/-- Events that were added are none of a silent state's if they hold a transaction or a wait. -/
theorem Silent.not_sent {s u : State} {evs : List Event} (h : Silent s u) (hu : u.trace = s.trace ++ evs) :
    busCount evs = 0 ∧ waitCount evs = 0 := by
  obtain ⟨evs', hu', hcounts⟩ := h
  cases List.append_cancel_left (hu.symm.trans hu')
  exact hcounts

/-- A cut run differs from a whole run with the same writes in its outputs alone: nothing is rolled back (R308). -/
theorem raiseTransport_cut (i : Instr) (w : State) (cut evs : List Event) (e : Env) (c : Cause) :
    raiseTransport c (w.sent cut) =
      { onSent i (State.sent { w with env := e } evs) with
          trace := w.trace ++ cut, busDesync := true, lastStatus := 0x08,
          response := some { status := .transport, cause := some c, data := [] },
          env := w.env.after (busCount cut) (waitCount cut) } := by
  unfold onSent
  cases i.isRequest <;> rfl

/-- Settles O54: with its transaction `k` failing, the same traffic is cut after it and the writes stand. -/
theorem transportFailureCutsTheTraceAndKeepsTheWrites : Obligations.TransportFailureCutsTheTraceAndKeepsTheWrites := by
  intro i s u e evs k c hi hexec hu hacks hk hpre ha hserves
  rcases passes_or_silent hi hexec with hpass | hsilent
  · obtain ⟨hevs, hleft⟩ := hpass.acked hexec hu hacks
    rw [trafficOf_setEnv] at hevs
    rw [writesOf_setEnv i s e, trafficOf_setEnv i s e, ← hevs] at hleft
    have hstart : Passes i s := hpass.of_setEnv s.env
    have hfailed := traffic_failed raiseTransport (s := writesOf i s) (fun t => .next (onSent i t)) hk (by rwa [writesOf_env])
      (by rwa [writesOf_env]) (by rwa [writesOf_env])
    have hcut := raiseTransport_cut i (writesOf i s) (cutAfterBus k evs) evs e c
    rw [← hleft, writesOf_trace, writesOf_env, busCount_cutAfterBus _ _ hk] at hcut
    rw [hstart.exec_eq, ← hevs, hfailed, hcut]
  · exact absurd (hsilent.not_sent hu).1 (by omega)

-- stuck traffic

/-- Being stuck depends on the environment alone. -/
theorem emit_stuck_of_env {evs : List Event} {s t : State} {f : Fault} (hs : emit evs s = .stuck f) (h : t.env = s.env) :
    emit evs t = .stuck f := by
  induction evs generalizing s t with
  | nil => cases hs
  | cons ev evs ih =>
    cases ev with
    | bus a bs =>
      simp only [emit, h] at hs ⊢
      revert hs
      rcases s.env.takeAnswer with ⟨_ | c | _, e⟩
      · exact fun hs => ih hs rfl
      · exact nofun
      · exact id
    | wait k d =>
      simp only [emit, h] at hs ⊢
      revert hs
      rcases s.env.takeWait with _ | e
      · exact id
      · exact fun hs => ih hs rfl
    | release => exact ih hs (by simpa using h)

theorem traffic_stuck {onFail : Cause → State → State} {evs : List Event} {s : State} {next : State → Result} {f : Fault}
    (h : emit evs s = .stuck f) : traffic onFail evs s next = .fault f := by
  simp only [traffic, h]

/-- INIT is stuck where its events are, before READY or after. -/
theorem initTraffic_stuck {w : State} {f : Fault} (h : emit (initBefore w ++ initAfter w) w = .stuck f) :
    initTraffic w = .fault f := by
  rw [emit_append] at h
  rcases emit_cases (initBefore w) w with ⟨he, -⟩ | ⟨k, c, -, -, -, he⟩ | ⟨g, he⟩
  · rw [he] at h
    have hafter : emit (initAfter w) ((w.sent (initBefore w)).setLifecycle .ready) = .stuck f :=
      emit_stuck_of_env (s := w.sent (initBefore w)) h rfl
    simp only [initTraffic, traffic, he, hafter]
  · rw [he] at h; cases h
  · rw [he] at h
    cases h
    exact traffic_stuck he

theorem raiseTransportInit_trace (c : Cause) (s : State) : (raiseTransportInit c s).trace = s.trace := by
  unfold raiseTransportInit
  split <;> rfl

/-- If every transaction INIT added was acknowledged, both parts of its traffic were sent. -/
theorem initTraffic_acked {w u : State} {evs : List Event} (h : initTraffic w = .next u) (hu : u.trace = w.trace ++ evs)
    (hacks : w.env.acksBus (busCount evs)) : evs = initBefore w ++ initAfter w := by
  have hafter := traffic_acked raiseTransportInit_trace h hu hacks
  rcases traffic_next _ _ _ _ _ hafter with hdone | ⟨k, c, hk, -, ha, rfl⟩
  · cases hdone
    exact List.append_cancel_left (hu.symm.trans (List.append_assoc ..))
  · rw [raiseTransportInit_trace, State.sent_trace, State.setLifecycle_trace, State.sent_trace, List.append_assoc,
      List.append_cancel_left_eq] at hu
    rw [← hu, busCount_append] at hacks
    exact absurd hacks (not_acks_cut hk ((w.env.answer_after ..).symm.trans ha))

/-- In any environment in which emitting `evs` is stuck, so is the instruction. -/
def StuckWith (i : Instr) (s : State) (evs : List Event) : Prop :=
  ∀ e f, emit evs { s with env := e } = .stuck f → exec i { s with env := e } = .fault f

theorem Passes.stuckWith {i : Instr} {s : State} {e : Env} (h : Passes i { s with env := e }) : StuckWith i s (trafficOf i s) := by
  intro e' f hemit
  rw [(h.of_setEnv e').exec_eq, trafficOf_setEnv, writesOf_setEnv]
  exact traffic_stuck (emit_stuck_of_env hemit rfl)

/-- INIT's body is its traffic for the variant it takes, in every environment. -/
theorem exec_init_passed {s : State} {v c : Byte} {bl on : Bool} {r : BitVec 6} {p : List Byte}
    (h : firstFailure (.init v bl on r c p) s = none) :
    ∃ g, ∀ e, exec (.init v bl on r c p) { s with env := e } = initTraffic { initWrites v g bl on s with env := e } := by
  obtain ⟨g, hg⟩ := Option.isSome_iff_exists.mp (operandsLegal_of_firstFailure_none h)
  refine ⟨g, fun e => ?_⟩
  rw [exec_accepted rfl rfl ((firstFailure_setEnv ..).trans h)]
  simp only [bodyOf, hg]
  cases hf : s.family with
  | char => exact charInit_eq_initTraffic hf
  | graphic => exact graphicInit_eq_initTraffic hf

/-- An instruction that sent `evs` in an environment that acknowledges is stuck where emitting them is. -/
theorem stuckWith_of_acked {i : Instr} {s u : State} {e : Env} {evs : List Event} (hexec : exec i { s with env := e } = .next u)
    (hu : u.trace = s.trace ++ evs) (hacks : e.acksBus (busCount evs)) (hsome : busCount evs ≠ 0 ∨ waitCount evs ≠ 0) :
    StuckWith i s evs := by
  have hnot : ¬ Silent { s with env := e } u := fun h => by
    obtain ⟨hb, hw⟩ := h.not_sent hu
    exact hsome.elim (absurd hb) (absurd hw)
  cases hi : i.isInit with
  | false =>
    have hpass := (passes_or_silent hi hexec).resolve_right hnot
    obtain ⟨rfl, -⟩ := hpass.acked hexec hu hacks
    rw [trafficOf_setEnv]
    exact hpass.stuckWith
  | true =>
    cases i with
    | init v bl on r c p =>
      cases hpass : firstFailure (.init v bl on r c p) s with
      | some err =>
        cases (exec_rejected rfl ((firstFailure_setEnv ..).trans hpass)).symm.trans hexec
        exact absurd (silent_of_trace_eq rfl) hnot
      | none =>
        obtain ⟨g, hinit⟩ := exec_init_passed hpass
        cases initTraffic_acked ((hinit e).symm.trans hexec) hu hacks
        intro e' f hemit
        rw [hinit e']
        exact initTraffic_stuck (emit_stuck_of_env hemit rfl)
    | _ => cases hi

/-- Settles O55: the traffic is stuck at the transaction that is never answered, or at the wait that is never served. -/
theorem unansweredTransactionIsStuck : Obligations.UnansweredTransactionIsStuck := by
  intro i s u e evs hexec hu hacks
  refine ⟨fun k hk hpre ha hserves => ?_, fun m hm hlt hs => ?_⟩
  · exact stuckWith_of_acked hexec hu hacks (.inl (by omega)) s.env _ ((emit_notAcknowledged k evs s hk hpre hserves).2 ha)
  · exact stuckWith_of_acked hexec hu hacks (.inr (by omega)) s.env _ (emit_unserved evs s m hm hlt hs)

end Sys2Proof.Machine

/-! The trace sizes of R353 (70_reset_and_hazards.md), and WRITE_TEXT_AT_LINE as two requests (30_encoding.md R108). -/

namespace Sys2Proof.Machine

-- a sending request that answered OK

/-- A sending body that answered OK sent all of its events. -/
theorem sendAndRespond_ok {evs : List Event} {s t : State} (h : sendAndRespond evs s = .next t) (hok : t.lastStatus = 0x00) :
    s.letsThrough evs ∧ t = respond .ok [] (s.sent evs) := by
  unfold sendAndRespond traffic at h
  split at h
  · rename_i u hu
    obtain ⟨hlets, rfl⟩ := (emit_done_iff _ _ _).mp hu
    cases h
    exact ⟨hlets, rfl⟩
  · cases h
    exact nomatch Status.eq_ok_of_code_eq_zero (st := .transport) hok
  · cases h

/-- Events that are let through one part after the other are sent as one. -/
theorem sendAndRespond_append {xs ys : List Event} {s : State} (hx : s.letsThrough xs) (hy : (s.sent xs).letsThrough ys) :
    sendAndRespond (xs ++ ys) s = .next (respond .ok [] ((s.sent xs).sent ys)) := by
  simp only [sendAndRespond, traffic, emit_append, emit_done _ _ hx, emit_done _ _ hy]

/-- The status of a failed check is not OK. -/
theorem firstFailure_ne_ok {i : Instr} {s : State} {e : Status} (h : firstFailure i s = some e) : e ≠ .ok := by
  rintro rfl
  rw [firstFailure, Option.map_eq_some_iff] at h
  obtain ⟨c, hc, hstatus⟩ := h
  have hmem := List.mem_of_find?_eq_some hc
  have hoperand : operandStatus i ≠ .ok := by cases i <;> exact nofun
  simp only [orderedChecks, List.mem_cons, List.not_mem_nil, or_false] at hmem
  rcases hmem with rfl | rfl | rfl | rfl | rfl | rfl | rfl | rfl
  case inr.inr.inr.inr.inr.inr.inl => exact hoperand hstatus
  all_goals cases hstatus

/-- The checks of a sending request that answered OK passed, and all of its traffic was let through. -/
theorem exec_sends_ok {i : Instr} {s t : State} (hs : sends i = true) (h : exec i s = .next t) (hok : t.lastStatus = 0x00) :
    firstFailure i s = none ∧ rowFound i s = true ∧ (writesOf i s).letsThrough (trafficOf i s) ∧
      t = respond .ok [] ((writesOf i s).sent (trafficOf i s)) := by
  have hi := isRequest_of_sends hs
  cases hpass : firstFailure i s with
  | some e =>
    cases (exec_rejected hi hpass).symm.trans h
    simp only [rejected, isReadReg_of_sends hs] at hok
    exact absurd (Status.eq_ok_of_code_eq_zero hok) (firstFailure_ne_ok hpass)
  | none =>
    rw [exec_eq_bodyOf hi hpass, bodyOf_sends hs] at h
    split at h
    · exact ⟨rfl, ‹_›, sendAndRespond_ok h hok⟩
    · cases h

-- WRITE_TEXT_AT_LINE (R108, R255)

/-- Settles O41: it is accepted where SET_POS is, and sends the address and the text, both let through. -/
theorem textAtLineIsPositionThenText : Obligations.TextAtLineIsPositionThenText := by
  intro s u t row p hpos hposok htext htextok
  obtain ⟨hpass, hrow, hlets, rfl⟩ := exec_sends_ok rfl hpos hposok
  obtain ⟨htpass, -, htlets, rfl⟩ := exec_sends_ok rfl htext htextok
  obtain ⟨hl, hf, -, -, hposition, -⟩ := (firstFailure_ready_iff rfl).mp hpass
  obtain ⟨-, -, -, -, -, hlen⟩ := (firstFailure_ready_iff rfl).mp htpass
  have hline : firstFailure (.writeTextAtLine row 0 0 p) s = none :=
    (firstFailure_ready_iff rfl).mpr ⟨hl, hf, rfl, rfl, hposition, hlen⟩
  have hsplit : trafficOf (.writeTextAtLine row 0 0 p) s =
      trafficOf (.setPos 0 row 0 []) s ++ dataXfers s.params s.backlight p := by
    obtain ⟨a, ha⟩ := Option.isSome_iff_exists.mp hrow
    simp only [trafficOf, ha]
  have hrowLine : rowFound (.writeTextAtLine row 0 0 p) s = true := hrow
  rw [exec_eq_bodyOf rfl hline, bodyOf_sends rfl, if_pos hrowLine, hsplit]
  exact sendAndRespond_append hlets htlets

-- how many events of each kind (R353)

/-- The transactions, waits and releases among events. -/
def eventCounts (evs : List Event) : Nat × Nat × Nat := (busCount evs, waitCount evs, releaseCount evs)

theorem eventCounts_append {xs ys : List Event} {b w r b' w' r' : Nat} (hx : eventCounts xs = (b, w, r))
    (hy : eventCounts ys = (b', w', r')) : eventCounts (xs ++ ys) = (b + b', w + w', r + r') := by
  simp only [eventCounts, Prod.mk.injEq] at hx hy ⊢
  simp [hx, hy]

theorem eventCounts_byteXfer (q : Params) (bl : Bool) (v : Byte) (rs : Bool) : eventCounts (byteXfer q bl v rs) = (6, 4, 0) := rfl

theorem eventCounts_framedCmd (q : Params) (c : Byte) : eventCounts (framedCmd q c) = (1, 0, 0) := rfl

theorem eventCounts_sendHd {q : Params} {bl : Bool} {r : EncResult} (h : r.error? = none) : eventCounts (sendHd q bl r) = (6, 4, 0) := by
  cases r with
  | ok v => rfl
  | err e => cases h

theorem eventCounts_dataXfers (q : Params) (bl : Bool) (p : List Byte) :
    eventCounts (dataXfers q bl p) = (6 * p.length, 4 * p.length, 0) := by
  induction p with
  | nil => rfl
  | cons v p ih =>
    have h := eventCounts_append (eventCounts_byteXfer q bl v true) ih
    rw [Nat.add_comm 6, Nat.add_comm 4, ← Nat.mul_succ, ← Nat.mul_succ] at h
    exact h

theorem eventCounts_address {q : Params} {bl : Bool} {r : EncResult} (h : r.error? = none) (p : List Byte) :
    eventCounts (sendHd q bl r ++ dataXfers q bl p) = (6 * (p.length + 1), 4 * (p.length + 1), 0) := by
  rw [eventCounts_append (eventCounts_sendHd h) (eventCounts_dataXfers q bl p), Prod.mk.injEq, Prod.mk.injEq]
  omega

theorem eventCounts_graphicInitSeq (q : Params) (on : Bool) : eventCounts (graphicInitSeq q on) = (q.gfxInitSeq.length + 1, 0, 0) := by
  have hcmds : ∀ cs : List Byte, eventCounts (cs.flatMap fun c => framedCmd q c) = (cs.length, 0, 0) := fun cs => by
    induction cs with
    | nil => rfl
    | cons c cs ih =>
      rw [List.flatMap_cons, eventCounts_append (eventCounts_framedCmd q c) ih, List.length_cons, Nat.add_comm]
  exact eventCounts_append (hcmds _) (eventCounts_framedCmd q _)

theorem encSetDdram_addr_error (a : BitVec 7) : (encSetDdram (a.setWidth 8)).error? = none := by
  rw [encSetDdram_setWidth]
  rfl

/-- The traffic of a sending request that passed its checks has the size of its row. -/
theorem eventCounts_trafficOf {i : Instr} {s : State} (hs : sends i = true) (hrow : rowFound i s = true)
    (ho : i.operandsLegal s.params = true) (hlen : i.lengthLegal s.params = true) :
    eventCounts (trafficOf i s) = traceSize i s := by
  cases i with
  | setPos x y c p =>
    obtain ⟨a, ha⟩ := Option.isSome_iff_exists.mp hrow
    simp only [trafficOf, ha]
    exact eventCounts_sendHd (encSetDdram_addr_error a)
  | writeTextAtLine row b c p =>
    obtain ⟨a, ha⟩ := Option.isSome_iff_exists.mp hrow
    simp only [trafficOf, ha]
    exact eventCounts_address (encSetDdram_addr_error a) p
  | writeText => exact eventCounts_dataXfers _ _ _
  | setGlyph k b c p =>
    have hk : k.toNat ≤ 7 := BitVec.le_def.mp (of_decide_eq_true ho)
    have hp : p.length = 8 := eq_of_beq hlen
    have h := eventCounts_address (q := s.params) (bl := s.backlight) (congrArg EncResult.error? (encSetCgram_slot hk)) p
    rwa [hp] at h
  | setAllGlyphs a b c p =>
    have hp : p.length = 64 := eq_of_beq hlen
    have h := eventCounts_address (q := s.params) (bl := s.backlight) (r := encSetCgram 0) rfl p
    rwa [hp] at h
  | cmdFunctionSet dl =>
    cases dl with
    | true => cases ho
    | false => rfl
  | cmdSetCgram o =>
    have h : o.toNat ≤ 0x3F := BitVec.le_def.mp (of_decide_eq_true ho)
    exact eventCounts_sendHd (congrArg EncResult.error? (encSetCgram_of_le h))
  | cmdSetDdram o =>
    have h : o.toNat ≤ 0x7F := BitVec.le_def.mp (of_decide_eq_true ho)
    exact eventCounts_sendHd (congrArg EncResult.error? (encSetDdram_of_le h))
  | clear | home | setCursorStyle | setDisplayOnChar | setDisplayOnGraphic | setBacklight | writeCommandChar | writeCommandGraphic
  | writeDataChar | writeDataGraphic | writeDataStream | cmdEntryMode | setContrast | setAllPixelsOn | setInverse => rfl
  | init | teardown | readReg | getGlyph | getAllGlyphs | hdClear | hdHome | hdEntryMode | hdDisplayControl | hdFunctionSet
  | hdSetCgramAddr | hdSetDdramAddr | nibIfaceReset | nibIface4bit | oledSetContrast | oledAllOn | oledInverse | oledDisplay => cases hs

/-- INIT's traffic before and after READY has the size of its row. -/
theorem InitBegun.eventCounts {i : Instr} {s w : State} (h : InitBegun i s w) :
    eventCounts (initBefore w ++ initAfter w) = traceSize i s := by
  obtain ⟨v, bl, on, r, c, p, g, rfl, -, -⟩ := h.isInit
  simp only [traceSize, initBefore, initAfter, h.family]
  cases s.family with
  | char => rfl
  | graphic => rw [List.append_nil, eventCounts_graphicInitSeq, h.params]

theorem traceSize_readReg {i : Instr} (h : i.isReadReg = true) (s : State) : traceSize i s = (0, 0, 0) := by
  cases i with
  | readReg => rfl
  | _ => cases h

theorem traceSize_teardown {i : Instr} (h : i.isTeardown = true) (s : State) :
    traceSize i s = (0, 0, if s.lifecycle = .released then 0 else 1) := by
  cases i with
  | teardown => rfl
  | _ => cases h

/-- Settles O56: a request that answers OK was not rejected and not cut, so it added its whole traffic. -/
theorem traceSizes : Obligations.TraceSizes := by
  intro i s t r hi h hresp hok
  cases exec_next i s t h with
  | rejected e _ he | readRegRejected e _ he => cases hresp; exact absurd hok he.1
  | cut | commandCut | initCutBefore | initCutAfter => cases hresp; cases hok
  | commandSent hc => exact nomatch hi.symm.trans hc
  | readReg v hr => exact ⟨[], (List.append_nil _).symm, (traceSize_readReg hr s).symm⟩
  | glyph k b c p bytes hg | allGlyphs a b c p bytes hg => exact ⟨[], (List.append_nil _).symm, by rw [hg]; rfl⟩
  | teardown ht hl => exact ⟨[.release], rfl, by rw [traceSize_teardown ht, if_neg hl]; rfl⟩
  | teardownAgain ht hl => exact ⟨[], (List.append_nil _).symm, by rw [traceSize_teardown ht, if_pos hl]; rfl⟩
  | sent hs _ _ hw =>
    obtain ⟨-, hrow, -⟩ := exec_sends_ok hs h rfl
    exact ⟨_, congrArg (· ++ _) (writesOf_trace i s), eventCounts_trafficOf hs hrow hw.2 hw.1⟩
  | initDone w hw => exact ⟨initBefore w ++ initAfter w, by simp [hw.trace], hw.eventCounts⟩

end Sys2Proof.Machine
